-- ==== Sys2Proof/Word.lean ====
section
/-! DEFINITION. The word types of the controller: bytes, 16-bit channel values and 32-bit CSR words (00_scope.md R9). -/

namespace Sys2Proof

/-- A byte of `BUF` or of a target register. -/
abbrev Byte := BitVec 8

/-- A 16-bit unsigned value: a channel of `CH` or `SORTED` (10_state.md R37, R38). -/
abbrev Half := BitVec 16

/-- A 32-bit CSR word (10_state.md R22). -/
abbrev Word := BitVec 32

end Sys2Proof
end

