-- ==== Sys2Proof/Syntax.lean ====
section
/-! DEFINITION. The eleven commands of the controller, one constructor per row of the opcode table (30_encoding.md R102).
Operands are the fields of the command word; what a command takes from `ARG`, `BUF` or `TIMEOUT` it reads from the state. -/

namespace Sys2Proof

/-- A command. `a`, `r`, `n` are the fields `TADDR`, `REG`, `LEN` of format `C` (30_encoding.md R100). -/
inductive Instr where
  /-- `WRITE a, r, n`, opcode 0x01 (40_bus_adapter.md R136). -/
  | write (a : BitVec 7) (r : BitVec 8) (n : BitVec 6)
  /-- `READ a, r, n`, opcode 0x02 (40_bus_adapter.md R137). -/
  | read (a : BitVec 7) (r : BitVec 8) (n : BitVec 6)
  /-- `SET_BANK`, opcode 0x03 (41_bank_identity.md R151). -/
  | setBank
  /-- `IS_CONNECTED`, opcode 0x04 (41_bank_identity.md R153). -/
  | isConnected
  /-- `INIT`, opcode 0x05 (42_configuration.md R166). -/
  | init
  /-- `SET_GAIN`, opcode 0x06 (42_configuration.md R168). -/
  | setGain
  /-- `SET_ITIME`, opcode 0x07 (42_configuration.md R170). -/
  | setItime
  /-- `SET_TIMEOUT`, opcode 0x08 (42_configuration.md R172). -/
  | setTimeout
  /-- `WAIT_DATA_READY`, opcode 0x09 (43_acquisition.md R186). -/
  | waitDataReady
  /-- `READ_ALL`, opcode 0x0A (43_acquisition.md R188). -/
  | readAll
  /-- `GET_SORTED`, opcode 0x0B (43_acquisition.md R190). -/
  | getSorted
  deriving DecidableEq, Repr

end Sys2Proof
end

