-- ==== Sys2Proof/WellFormed.lean ====
section
/-! DEFINITION. Which commands pass the argument check on the fields of their word (30_encoding.md R105). An ill-formed
command still decodes, issues and runs: it completes with `BADARG`. -/

namespace Sys2Proof

/-- `MAX_BURST`, the longest burst in bytes (00_scope.md R7). -/
def maxBurst : Nat := 32

/-- The range check of `WRITE` and `READ`: a count of 1 to 32, and no register past 0xFF (30_encoding.md R105). -/
def burstOk (r : BitVec 8) (n : BitVec 6) : Bool :=
  decide (n.toNat ≠ 0) && decide (n.toNat ≤ maxBurst) && decide (r.toNat + n.toNat - 1 ≤ 0xFF)

/-- The command's word passes the argument check of 30_encoding.md R105. The gain code of `SET_GAIN` is in `ARG`, not in
the word, so its check is in the command's meaning. -/
def Instr.wellFormed : Instr → Bool
  | .write _ r n => burstOk r n
  | .read _ r n => burstOk r n
  | .setBank => true
  | .isConnected => true
  | .init => true
  | .setGain => true
  | .setItime => true
  | .setTimeout => true
  | .waitDataReady => true
  | .readAll => true
  | .getSorted => true

end Sys2Proof
end

