-- ==== Sys2Proof/Decode.lean ====
section
/-! DEFINITION. The decoder of command words, total on every 32-bit word (30_encoding.md R100, R102, R103, R109), and after it
the encoder written from the same format. -/

namespace Sys2Proof

/-- Why a command word is illegal (30_encoding.md R103). Both reasons complete with `ILLEGAL`. -/
inductive DecodeError where
  /-- `OP` is 0x00 or in 0x0C..0xFF. -/
  | illegalOpcode
  /-- A reserved bit of the opcode's format is 1. -/
  | reservedBit
  deriving DecidableEq, Repr

/-- Field `OP`, bits [7:0] (30_encoding.md R100). -/
def opField (w : Word) : BitVec 8 := w.extractLsb' 0 8

/-- Field `TADDR`, bits [14:8]. -/
def taddrField (w : Word) : BitVec 7 := w.extractLsb' 8 7

/-- Field `REG`, bits [23:16]. -/
def regField (w : Word) : BitVec 8 := w.extractLsb' 16 8

/-- Field `LEN`, bits [29:24]. -/
def lenField (w : Word) : BitVec 6 := w.extractLsb' 24 6

/-- The reserved bits of `WRITE` and `READ`, [31:30] and [15], are all zero. -/
def burstReservedClear (w : Word) : Bool := w.extractLsb' 30 2 = 0#2 && w.extractLsb' 15 1 = 0#1

/-- The reserved bits of every other opcode, [31:8], are all zero. -/
def bareReservedClear (w : Word) : Bool := w.extractLsb' 8 24 = 0#24

/-- A word of an opcode with the operand fields `TADDR`, `REG`, `LEN`. -/
def decodeBurst (w : Word) (make : BitVec 7 → BitVec 8 → BitVec 6 → Instr) : Except DecodeError Instr :=
  if burstReservedClear w then .ok (make (taddrField w) (regField w) (lenField w)) else .error .reservedBit

/-- A word of an opcode without operand fields. -/
def decodeBare (w : Word) (i : Instr) : Except DecodeError Instr :=
  if bareReservedClear w then .ok i else .error .reservedBit

/-- The decoder: `OP` and the reserved-bit test (30_encoding.md R102, R103). -/
def decode (w : Word) : Except DecodeError Instr :=
  match (opField w).toNat with
  | 0x01 => decodeBurst w .write
  | 0x02 => decodeBurst w .read
  | 0x03 => decodeBare w .setBank
  | 0x04 => decodeBare w .isConnected
  | 0x05 => decodeBare w .init
  | 0x06 => decodeBare w .setGain
  | 0x07 => decodeBare w .setItime
  | 0x08 => decodeBare w .setTimeout
  | 0x09 => decodeBare w .waitDataReady
  | 0x0A => decodeBare w .readAll
  | 0x0B => decodeBare w .getSorted
  | _ => .error .illegalOpcode

/-- The opcode of a command (30_encoding.md R102). -/
def Instr.opcode : Instr → BitVec 8
  | .write _ _ _ => 0x01#8
  | .read _ _ _ => 0x02#8
  | .setBank => 0x03#8
  | .isConnected => 0x04#8
  | .init => 0x05#8
  | .setGain => 0x06#8
  | .setItime => 0x07#8
  | .setTimeout => 0x08#8
  | .waitDataReady => 0x09#8
  | .readAll => 0x0A#8
  | .getSorted => 0x0B#8

/-- A word of format `C` (30_encoding.md R100): `00 LEN REG 0 TADDR OP`. -/
def formatC (n : BitVec 6) (r : BitVec 8) (a : BitVec 7) (op : BitVec 8) : Word :=
  0#2 ++ n ++ r ++ 0#1 ++ a ++ op

/-- The command word of a command: reserved fields are zero (30_encoding.md R100, R110). -/
def encode : Instr → Word
  | .write a r n => formatC n r a 0x01#8
  | .read a r n => formatC n r a 0x02#8
  | .setBank => formatC 0 0 0 0x03#8
  | .isConnected => formatC 0 0 0 0x04#8
  | .init => formatC 0 0 0 0x05#8
  | .setGain => formatC 0 0 0 0x06#8
  | .setItime => formatC 0 0 0 0x07#8
  | .setTimeout => formatC 0 0 0 0x08#8
  | .waitDataReady => formatC 0 0 0 0x09#8
  | .readAll => formatC 0 0 0 0x0A#8
  | .getSorted => formatC 0 0 0 0x0B#8

/-- The command word whose low `nbits` bits are those of `w` and whose other bits are zero. -/
def tableWord (nbits w : Nat) : Word := BitVec.ofNat 32 (w % 2 ^ nbits)

/-- What the decoder reads from an opcode-table word: a command is one 32-bit word (30_encoding.md R109). -/
def decodeTableWord (nbits w : Nat) : Option Instr :=
  match decode (tableWord nbits w) with
  | .ok i => some i
  | .error _ => none

end Sys2Proof
end

