-- ==== Sys2Proof/Config.lean ====
section
/-! DEFINITION. The implementation parameters of the controller (00_scope.md R7, R8), its constants, and the free values
the spec leaves to the environment (60_exceptions.md R239). -/

namespace Sys2Proof

/-- The parameters of 00_scope.md R7 whose value the source does not give. "A model takes every parameter as an argument":
they are a field of the state that no step changes, so a statement about every state is about every choice of them. -/
structure Params where
  /-- `DEV_ADDR`. -/
  devAddr : BitVec 7
  /-- `EXPECTED_ID`. -/
  expectedId : Byte
  /-- `ID_REG`. -/
  idReg : BitVec 8
  /-- `CFG0_REG`. -/
  cfg0Reg : BitVec 8
  /-- `BANK_BIT`. -/
  bankBit : Fin 8
  /-- `ENABLE_REG`. -/
  enableReg : BitVec 8
  /-- `PON_BIT`. -/
  ponBit : Fin 8
  /-- `SPEN_BIT`. -/
  spenBit : Fin 8
  /-- `ATIME_REG`. -/
  atimeReg : BitVec 8
  /-- `ASTEP_REG`, the low byte; the high byte is at the next address. -/
  astepReg : BitVec 8
  /-- `GAIN_REG`. -/
  gainReg : BitVec 8
  /-- `SMUX_REG`. -/
  smuxReg : BitVec 8
  /-- `SMUX_LSB`. -/
  smuxLsb : Fin 7
  /-- `SMUX_18CH`. -/
  smux18ch : BitVec 2
  /-- `STATUS_REG`. -/
  statusReg : BitVec 8
  /-- `AVALID_BIT`. -/
  avalidBit : Fin 8
  /-- `DATA_BASE`; channel `i` is at `DATA_BASE + 2*i`. -/
  dataBase : BitVec 8
  /-- `DEFAULT_GAIN`, one of the 13 gain codes. -/
  defaultGain : Fin 13
  /-- `STAB_DELAY_MS`. -/
  stabDelayMs : Word
  deriving DecidableEq, Repr

/-- The constraints of 00_scope.md R8: configuration registers pairwise distinct, outside the data range, all but `ID_REG` at
0x80 or above, `ID_REG` in 0x58..0x66, `PON_BIT ≠ SPEN_BIT`, and the data range ends at or below 0xFF. -/
def Params.wf (p : Params) : Bool :=
  let high := [p.cfg0Reg, p.enableReg, p.atimeReg, p.astepReg, p.astepReg + 1, p.gainReg, p.smuxReg, p.statusReg]
  decide ((p.idReg :: high).Nodup)
    && high.all (fun r => decide (0x80 ≤ r.toNat))
    && (p.idReg :: high).all (fun r => decide (r.toNat < p.dataBase.toNat ∨ p.dataBase.toNat + 35 < r.toNat))
    && decide (0x58 ≤ p.idReg.toNat) && decide (p.idReg.toNat ≤ 0x66)
    && decide (p.astepReg.toNat ≤ 0xFE)
    && decide (0x80 ≤ p.dataBase.toNat) && decide (p.dataBase.toNat + 35 ≤ 0xFF)
    && decide (p.ponBit ≠ p.spenBit)

/-- `SORT_PERM` (00_scope.md R7): entry `k` is the index in `CH` of `SORTED[k]`. -/
def sortPerm : Vector (Fin 18) 12 := #v[12, 6, 0, 7, 8, 15, 1, 2, 9, 13, 14, 3]

/-- The largest gain code: the 13 codes are 0..12 (00_scope.md R7, `GAIN_CODES`). -/
def maxGainCode : Nat := 12

/-- What a transaction that failed or was cut short left in the reference target: any contents of its registers and any
pointer (40_bus_adapter.md R130, 70_reset_and_hazards.md R260, R268, 93_implementation_defined.md U1, U4, U12). The spec leaves
both open; that they are listed in this form is the model's (DESIGN CHOICE, safe: log 10). -/
structure Leftover where
  /-- Stores to the device's registers, one after the other. -/
  stores : List (BitVec 8 × Byte)
  /-- The register pointer after it; `none` leaves it as it was. -/
  ptr : Option (BitVec 8)
  deriving DecidableEq, Repr, Inhabited

/-- The device is as it was. -/
def Leftover.nothing : Leftover where
  stores := []
  ptr := none

/-- One draw of the unconstrained oracle (20_memory.md R75): what the target does with the next transaction, whichever kind
it is (40_bus_adapter.md R130, R131, R132). In every failed transaction `left` says what it left in the device. -/
inductive Draw where
  /-- It never answers (R132). -/
  | silent
  /-- It does not acknowledge its address byte. -/
  | nackAddr (left : Leftover)
  /-- Write: byte `k` of `[r, d0, ...]` is not acknowledged. Read: the register byte of the pointer phase is not
  acknowledged. -/
  | nackByte (k : Nat) (left : Leftover)
  /-- Every byte is acknowledged; a read phase returns `bytes`, cut to fewer than asked for, and the device is then as `left`
  says (70_reset_and_hazards.md R268, U1). -/
  | short (bytes : List Byte) (left : Leftover)
  /-- Every byte is acknowledged; a read phase returns `bytes`, cut to the length asked for. -/
  | ok (bytes : List Byte)
  deriving DecidableEq, Repr, Inhabited

/-- What a draw leaves in the device where its transaction fails. -/
def Draw.left : Draw → Leftover
  | .silent => .nothing
  | .nackAddr left => left
  | .nackByte _ left => left
  | .short _ left => left
  | .ok _ => .nothing

/-- Which agent moves at a turn that the agenda leaves open (00_scope.md R6). -/
inductive Turn where
  /-- `CLOCK` counts one millisecond. -/
  | clock
  /-- `CTRL` runs one segment. -/
  | ctrl
  deriving DecidableEq, Repr, Inhabited

/-- FREE VALUE (93_implementation_defined.md U6, U7; log 7): the answer of the unconstrained oracle to its `n`-th draw. -/
opaque Config.freeDraw : Nat → Draw

/-- FREE VALUE (U5; log 9): the byte read from an unspecified register of the reference target, at the `n`-th draw. -/
opaque Config.freeByte : Nat → Byte

/-- FREE VALUE (U18, 20_memory.md R78; log 9): what a register that nothing has stored since the `n`-th power-up holds. The
`Bool` is true for the bank-1 view `REGS1`. -/
opaque Config.powerUpByte : Nat → Bool → BitVec 8 → Byte

/-- FREE VALUE (log 4): the `n`-th round of the turns that the agenda leaves open, `(a, b)`, is `a + 1` turns of `CTRL` and
then `b + 1` turns of `CLOCK`. Whatever the value, each of the two moves again after finitely many open turns: `CLOCK` is fair
(60_exceptions.md R236). -/
opaque Config.freeRound : Nat → Nat × Nat

/-- FREE VALUE (92_eei_decisions.md D19, OPEN; log 2): `DEFAULT_GAIN` of the machine after reset. -/
opaque Config.openDefaultGain : Fin 13

/-- FREE VALUE (92_eei_decisions.md D18, OPEN; log 2): `STAB_DELAY_MS` of the machine after reset. -/
opaque Config.openStabDelayMs : Word

/-- The default parameters of 00_scope.md R7, with the two OPEN ones given. The spec marks the addresses, bit positions and
identities "from general knowledge, not in source" (93_implementation_defined.md G1, G2): PRESUMED, unsafe, log 1. -/
def Params.withDefaults (gain : Fin 13) (delay : Word) : Params where
  devAddr := 0x39
  expectedId := 0x81
  idReg := 0x5A
  cfg0Reg := 0xBF
  bankBit := 4
  enableReg := 0x80
  ponBit := 0
  spenBit := 1
  atimeReg := 0x81
  astepReg := 0xD4
  gainReg := 0xC6
  smuxReg := 0xD6
  smuxLsb := 5
  smux18ch := 0b11
  statusReg := 0x90
  avalidBit := 6
  dataBase := 0x95
  defaultGain := gain
  stabDelayMs := delay

/-- The parameters in `State.reset`: the defaults, the two OPEN parameters free (log 2). -/
def Params.reset : Params := Params.withDefaults Config.openDefaultGain Config.openStabDelayMs

end Sys2Proof
end

