-- ==== Sys2Proof/Machine/HostLang.lean ====
section
/-! DEFINITION. The language of the host agent: the registers of the CSR window (10_state.md R22), the host accesses
(30_encoding.md R110, 20_memory.md R65), and the pseudo-instructions (44_pseudo.md). -/

namespace Sys2Proof.Machine

/-- A register of the CSR window (10_state.md R22). -/
inductive Csr where
  /-- Offset 0x00. -/
  | cmd
  /-- Offset 0x04. -/
  | arg
  /-- Offset 0x08. -/
  | status
  /-- Offset 0x0C. -/
  | timeout
  /-- Offset 0x10. -/
  | time
  /-- Offset 0x14. -/
  | result
  /-- `BUFW j`, offset 0x20 + 4*j. -/
  | bufw (j : Fin 8)
  /-- `CHW j`, offset 0x40 + 4*j. -/
  | chw (j : Fin 9)
  /-- `SRW j`, offset 0x64 + 4*j. -/
  | srw (j : Fin 6)
  deriving DecidableEq, Repr

/-- The width of a host access. Only `word` is admitted (20_memory.md R65). -/
inductive Width where
  /-- 8 bits. -/
  | byte
  /-- 16 bits. -/
  | half
  /-- 32 bits. -/
  | word
  deriving DecidableEq, Repr

/-- One line of a host program, after expansion of the pseudo-instructions. -/
inductive HostOp where
  /-- `lw`, or a narrower load, at a byte offset of the window. -/
  | load (w : Width) (off : BitVec 8)
  /-- `sw`, or a narrower store, at a byte offset of the window. -/
  | store (w : Width) (off : BitVec 8) (v : Word)
  /-- `WAIT_IDLE` (44_pseudo.md R204): load `STATUS` until `BUSY` reads 0. -/
  | waitIdle
  /-- Reset (70_reset_and_hazards.md R260). `cut` is the environment's draw of what a transaction that the reset cut short
  left in the reference target; it counts only where a transaction to it is in progress (log 11). -/
  | reset (cut : Leftover)
  deriving DecidableEq, Repr

/-- The three precision presets (44_pseudo.md R207). -/
inductive Precision where
  /-- `LOW`. -/
  | low
  /-- `MEDIUM`. -/
  | medium
  /-- `HIGH`. -/
  | high
  deriving DecidableEq, Repr

/-- The host pseudo-instructions (44_pseudo.md R204 to R208). -/
inductive Pseudo where
  /-- `WAIT_IDLE`. -/
  | waitIdle
  /-- `WRITE_BYTE a, r, v`. -/
  | writeByte (a : BitVec 7) (r : BitVec 8) (v : Byte)
  /-- `READ_BYTE a, r`. -/
  | readByte (a : BitVec 7) (r : BitVec 8)
  /-- `SET_BANK #b`. -/
  | setBank (b : Word)
  /-- `SET_GAIN #g`. -/
  | setGain (g : Word)
  /-- `SET_ITIME #atime, #astep`. -/
  | setItime (atime : Byte) (astep : Half)
  /-- `SET_TIMEOUT #ms`. -/
  | setTimeout (ms : Word)
  /-- `SET_PRECISION p`. -/
  | setPrecision (p : Precision)
  deriving DecidableEq, Repr

end Sys2Proof.Machine
end

