-- ==== Sys2Proof/Machine/State.lean ====
section
/-! DEFINITION. The state of the model: the controller's record (10_state.md R47), the clock (R46), the bus target
(20_memory.md R75 to R78), the host's program and the agenda of turns; the reasons a step can stop; the state after reset. -/

namespace Sys2Proof.Machine

/-- A failure code (60_exceptions.md R220). -/
inductive ErrCode where
  /-- 0, no failure. -/
  | none
  /-- 1, a transaction not acknowledged. -/
  | nack
  /-- 2, a read phase that returned another count than asked for. -/
  | short
  /-- 3, the data-ready bit not seen in time. -/
  | timeout
  /-- 4, an illegal command word. -/
  | illegal
  /-- 5, an argument out of range. -/
  | badarg
  /-- 6, the bank mirror is not bank 0. -/
  | bank
  /-- 7, the identity byte differs from `EXPECTED_ID`. -/
  | idMismatch
  deriving DecidableEq, Repr

/-- `SEG`: a position in a command's pseudocode, always just before a primitive call or at the command's first statement
(10_state.md R21, R43; 30_encoding.md R107). Each name is the primitive call that the segment makes. -/
inductive Seg where
  /-- The first statement of the command: its checks, then its first primitive call. -/
  | start
  /-- Transaction 2 of `SelectBank`: the write of `CFG0_REG`. -/
  | bankWrite
  /-- `IS_CONNECTED`: the read of `ID_REG`. -/
  | idRead
  /-- `IS_CONNECTED`: the read of `CFG0_REG` of the switch back to bank 0. -/
  | backRead
  /-- `IS_CONNECTED`: the write of `CFG0_REG` of the switch back to bank 0. -/
  | backWrite
  /-- `INIT`: the read of `ENABLE_REG` for the power-on bit. -/
  | ponRead
  /-- `INIT`: the write of `ENABLE_REG` with the power-on bit. -/
  | ponWrite
  /-- `INIT`: the `Now()` that latches `T0` of `DelayMs`. -/
  | delayStart
  /-- `INIT`: the `Now()` in the loop of `DelayMs`. -/
  | delayLoop
  /-- `INIT`: the read of `SMUX_REG`. -/
  | smuxRead
  /-- `INIT`: the write of `SMUX_REG`. -/
  | smuxWrite
  /-- `INIT`: the read of `GAIN_REG`. -/
  | gainRead
  /-- `INIT`, `SET_GAIN`: the write of `GAIN_REG`. -/
  | gainWrite
  /-- `INIT`: the read of `ENABLE_REG` for the measurement-enable bit. -/
  | spenRead
  /-- `INIT`: the write of `ENABLE_REG` with the measurement-enable bit. -/
  | spenWrite
  /-- `SET_ITIME`: the write of `ASTEP_REG`. -/
  | astepLow
  /-- `SET_ITIME`: the write of `ASTEP_REG + 1`. -/
  | astepHigh
  /-- `READ_ALL`, `GET_SORTED`: the `Now()` that latches `T0` of `WaitReady`. -/
  | waitStart
  /-- The `Now()` of the time check of `WaitReady`. -/
  | waitCheck
  /-- The poll of `STATUS_REG` of `WaitReady`. -/
  | poll
  /-- `READ_ALL`, `GET_SORTED`: the two-byte read of channel `I`. -/
  | channel
  deriving DecidableEq, Repr

/-- `STATUS` (10_state.md R25, R47). Its reserved bits read as 0 and are not stored. -/
structure Status where
  /-- `BUSY`. -/
  busy : Bool
  /-- `DONE`. -/
  done : Bool
  /-- `OK`. -/
  ok : Bool
  /-- `CH_VALID`. -/
  chValid : Bool
  /-- `SORTED_VALID`. -/
  sortedValid : Bool
  /-- `WERR`. -/
  werr : Bool
  /-- `BANK`, the bank mirror: 0b00, 0b01, or 0b11 for unknown. -/
  bank : BitVec 2
  /-- `ERR`. -/
  err : BitVec 4
  deriving DecidableEq, Repr

/-- `RESULT` (10_state.md R35, R47). -/
structure Result where
  /-- `ID_VALUE`. -/
  idValue : Byte
  /-- `RCOUNT`. -/
  rcount : Byte
  /-- `TXCOUNT`. -/
  txcount : BitVec 16
  deriving DecidableEq, Repr

/-- The command context `CTX` (10_state.md R43, R47), present only while a command is in progress. -/
structure Ctx where
  /-- `SEG`. -/
  seg : Seg
  /-- `T0`. -/
  t0 : Word
  /-- `E`. -/
  e : BitVec 4
  /-- `V`. -/
  v : Byte
  /-- `STG`. -/
  stg : Half
  /-- `I`. -/
  i : Fin 18
  deriving DecidableEq, Repr

/-- Target registers, as cells in one canonical form: addresses strictly rising (`Memory.wf`). An unlisted register has no
stored value: no source gives the register reset values (20_memory.md R78; DESIGN CHOICE: log 9). -/
abbrev Memory := List Host.Cell

/-- What stands on the bus (00_scope.md R6). -/
inductive TargetKind where
  /-- The unconstrained oracle (20_memory.md R75). -/
  | oracle
  /-- The reference target at `DEV_ADDR` (20_memory.md R76, R77). -/
  | reference
  deriving DecidableEq, Repr

/-- The `TARGET` agent's state. `regs`, `regs1` and `ptr` are the reference target's; the oracle has none. -/
structure Target where
  /-- Which target the model has. -/
  kind : TargetKind
  /-- `REGS` (20_memory.md R76). -/
  regs : Memory
  /-- `REGS1`, the bank-1 view of the registers below 0x80. -/
  regs1 : Memory
  /-- `PTR`, the register pointer. -/
  ptr : BitVec 8
  /-- Answers the environment has fixed for the next transactions, the next one first; `none` lets the target answer by
  itself. The model's own field (log 7). -/
  script : List (Option Draw)
  /-- How many free values the target has drawn. The model's own field (log 7). -/
  draws : Nat
  /-- How often the target's power has cycled. The model's own field (log 9). -/
  powerUps : Nat
  deriving DecidableEq, Repr

/-- The `HOST` agent: its program is the input (00_scope.md R6). Both fields are the model's own (log 5, log 12). -/
structure HostAgent where
  /-- The host accesses still to come, the next one first. -/
  prog : List HostOp
  /-- The word the last host load returned. -/
  readData : Word
  deriving DecidableEq, Repr

/-- A turn of an agent. -/
inductive Event where
  /-- `HOST` does the next access of its program. -/
  | host
  /-- `CTRL` runs one segment. -/
  | ctrl
  /-- `CLOCK` counts one millisecond. -/
  | clock
  /-- The sensor engine of the reference target stores `v` in register `r` (20_memory.md R77). -/
  | engine (r : BitVec 8) (v : Byte)
  /-- The target's power cycles (70_reset_and_hazards.md R262). -/
  | powerCycle
  deriving DecidableEq, Repr

/-- The state of the model. Fields up to `ctx` are the controller's record of 10_state.md R47. -/
structure State where
  /-- `CMD` (R23). -/
  cmd : Word
  /-- `ARG` (R24). -/
  arg : Word
  /-- `STATUS` (R25). -/
  status : Status
  /-- `TIMEOUT` (R33). -/
  timeout : Word
  /-- `RESULT` (R35). -/
  result : Result
  /-- `BUF[0..31]` (R36). -/
  buf : Vector Byte 32
  /-- `CH[0..17]` (R37). -/
  ch : Vector Half 18
  /-- `SORTED[0..11]` (R38). -/
  sorted : Vector Half 12
  /-- `CTX` (R43). -/
  ctx : Option Ctx
  /-- `NOW_MS` (R46), the clock's. -/
  nowMs : Word
  /-- The bus target (20_memory.md R75 to R78). -/
  target : Target
  /-- The host and its program. -/
  host : HostAgent
  /-- The turns still to come, the next one first. The model's own field (log 4). -/
  agenda : List Event
  /-- How many rounds of open turns have ended. The model's own field (log 4). -/
  rounds : Nat
  /-- How many open turns of the present round have been taken. The model's own field (log 4). -/
  spent : Nat
  /-- The implementation parameters (00_scope.md R7); no step changes them (log 1). -/
  params : Params
  deriving DecidableEq, Repr

/-- Why the model stops with a fault. No state that an issue leads to has one (DEDUCED: log 6): both are safe. -/
inductive Fault where
  /-- Raised by a meaning called while no command is in progress. Safe: `step` calls a meaning only while `BUSY = 1`, when
  10_state.md R47 says `CTX` is present. -/
  | noCommand
  /-- Raised by a meaning whose command has no such position. Safe: `SEG` starts at the command's first statement and only
  its own segments move it (10_state.md R21). -/
  | foreignSegment
  deriving DecidableEq, Repr

/-- Why the model refuses a step. -/
inductive Refusal where
  /-- Raised by an arm of `exec` without a meaning, by the command's mnemonic. No arm has it. Safe. -/
  | notModelled (mnemonic : String)
  /-- Raised by a host access narrower than 32 bits (20_memory.md R65, 60_exceptions.md R239). Safe: the spec refuses it. -/
  | narrowHostAccess
  /-- Raised by a 32-bit host access at an offset that is no multiple of 4 (20_memory.md R65, R239). Safe: the spec refuses
  it. -/
  | misalignedHostAccess
  deriving DecidableEq, Repr

/-- The outcome of a step. -/
abbrev Out := Host.Outcome State Fault Refusal

/-- `STATUS` after reset (10_state.md R48): all zero, the bank mirror unknown. -/
def Status.reset : Status where
  busy := false
  done := false
  ok := false
  chValid := false
  sortedValid := false
  werr := false
  bank := 0b11
  err := 0

/-- `RESULT` after reset (10_state.md R48). -/
def Result.reset : Result where
  idValue := 0
  rcount := 0
  txcount := 0

/-- The target of the model after reset: the unconstrained oracle (00_scope.md R6), nothing fixed, nothing stored. -/
def Target.atReset : Target where
  kind := .oracle
  regs := []
  regs1 := []
  ptr := 0
  script := []
  draws := 0
  powerUps := 0

/-- The machine right after reset (10_state.md R48). `nowMs` and `ptr` (log 3, log 9: DESIGN CHOICE, unsafe) and the
model's own fields (log 4, 5, 7, 9, 12: DESIGN CHOICE) are the model's choice; the parameters are log 1 (PRESUMED, unsafe) and
log 2 (free). -/
def State.reset : State where
  cmd := 0
  arg := 0
  status := Status.reset
  timeout := 0
  result := Result.reset
  buf := Vector.replicate 32 0
  ch := Vector.replicate 18 0
  sorted := Vector.replicate 12 0
  ctx := none
  nowMs := 0
  target := Target.atReset
  host := { prog := [], readData := 0 }
  agenda := []
  rounds := 0
  spent := 0
  params := Params.reset

/-! Updates of one field. Every operation writes the state through these. -/

/-- Replace `CMD`. -/
def State.setCmd (s : State) (x : Word) : State := { s with cmd := x }
/-- Replace `ARG`. -/
def State.setArg (s : State) (x : Word) : State := { s with arg := x }
/-- Replace `STATUS`. -/
def State.setStatus (s : State) (x : Status) : State := { s with status := x }
/-- Replace `TIMEOUT`. -/
def State.setTimeout (s : State) (x : Word) : State := { s with timeout := x }
/-- Replace `RESULT`. -/
def State.setResult (s : State) (x : Result) : State := { s with result := x }
/-- Replace `BUF`. -/
def State.setBuf (s : State) (x : Vector Byte 32) : State := { s with buf := x }
/-- Replace `CH`. -/
def State.setCh (s : State) (x : Vector Half 18) : State := { s with ch := x }
/-- Replace `SORTED`. -/
def State.setSorted (s : State) (x : Vector Half 12) : State := { s with sorted := x }
/-- Replace `CTX`. -/
def State.setCtx (s : State) (x : Option Ctx) : State := { s with ctx := x }
/-- Replace `NOW_MS`. -/
def State.setNowMs (s : State) (x : Word) : State := { s with nowMs := x }
/-- Replace the target. -/
def State.setTarget (s : State) (x : Target) : State := { s with target := x }
/-- Replace the host agent. -/
def State.setHost (s : State) (x : HostAgent) : State := { s with host := x }
/-- Replace the agenda. -/
def State.setAgenda (s : State) (x : List Event) : State := { s with agenda := x }
/-- Replace the count of rounds of open turns. -/
def State.setRounds (s : State) (x : Nat) : State := { s with rounds := x }
/-- Replace the count of open turns of the present round. -/
def State.setSpent (s : State) (x : Nat) : State := { s with spent := x }

/-! Updates of one field of `STATUS`, of `RESULT` and of the target. -/

/-- Replace `BANK`. -/
def Status.setBank (t : Status) (x : BitVec 2) : Status := { t with bank := x }
/-- Replace `CH_VALID`. -/
def Status.setChValid (t : Status) (x : Bool) : Status := { t with chValid := x }
/-- Replace `SORTED_VALID`. -/
def Status.setSortedValid (t : Status) (x : Bool) : Status := { t with sortedValid := x }
/-- Replace `WERR`. -/
def Status.setWerr (t : Status) (x : Bool) : Status := { t with werr := x }
/-- Replace `ID_VALUE`. -/
def Result.setIdValue (t : Result) (x : Byte) : Result := { t with idValue := x }
/-- Replace `RCOUNT`. -/
def Result.setRcount (t : Result) (x : Byte) : Result := { t with rcount := x }
/-- Replace `TXCOUNT`. -/
def Result.setTxcount (t : Result) (x : BitVec 16) : Result := { t with txcount := x }
/-- Replace `REGS`. -/
def Target.setRegs (t : Target) (x : Memory) : Target := { t with regs := x }
/-- Replace `REGS1`. -/
def Target.setRegs1 (t : Target) (x : Memory) : Target := { t with regs1 := x }
/-- Replace `PTR`. -/
def Target.setPtr (t : Target) (x : BitVec 8) : Target := { t with ptr := x }
/-- Replace the script. -/
def Target.setScript (t : Target) (x : List (Option Draw)) : Target := { t with script := x }
/-- Replace the count of draws. -/
def Target.setDraws (t : Target) (x : Nat) : Target := { t with draws := x }
/-- Replace the count of power cycles. -/
def Target.setPowerUps (t : Target) (x : Nat) : Target := { t with powerUps := x }

end Sys2Proof.Machine
end

