-- ==== Sys2Proof/Machine/Operands.lean ====
section
/-! DEFINITION. Operand forms: the fields that commands take from `ARG` and `BUF` (30_encoding.md R104), the bit fields of
target registers that commands write, the byte order of multi-byte quantities, and the map of the CSR window
(10_state.md R22). -/

namespace Sys2Proof.Machine

/-! Operands in `ARG` (30_encoding.md R104). -/

/-- `SET_BANK`: `b = ARG[0]`. -/
def argBank (arg : Word) : BitVec 1 := arg.extractLsb' 0 1

/-- `SET_GAIN`: `g = ARG[4:0]`. -/
def argGain (arg : Word) : BitVec 5 := arg.extractLsb' 0 5

/-- `SET_ITIME`: `atime = ARG[7:0]`. -/
def argAtime (arg : Word) : Byte := arg.extractLsb' 0 8

/-- `SET_ITIME`: `astep = ARG[23:8]`. -/
def argAstep (arg : Word) : Half := arg.extractLsb' 8 16

/-- The low byte of a 16-bit quantity, which goes to the lower register address (20_memory.md R64). -/
def lowByte (v : Half) : Byte := v.extractLsb' 0 8

/-- The high byte of a 16-bit quantity, which goes to the next register address (20_memory.md R64). -/
def highByte (v : Half) : Byte := v.extractLsb' 8 8

/-- Two bytes of the target, the one at the lower address first, as one little-endian quantity (20_memory.md R64). -/
def littleEndian (b0 b1 : Byte) : Half := b1 ++ b0

/-! The data buffer (10_state.md R36). -/

/-- `[BUF[0], ..., BUF[n-1]]`, the data of `WRITE` (40_bus_adapter.md R136). -/
def bufPrefix (buf : Vector Byte 32) (n : Nat) : List Byte := buf.toList.take n

/-- `BUF[k] <- bytes[k]` for each byte received; the rest unchanged (40_bus_adapter.md R137). -/
def bufFill (buf : Vector Byte 32) (bytes : List Byte) : Vector Byte 32 :=
  Vector.ofFn fun k => if h : k.val < bytes.length then bytes[k.val] else buf[k]

/-- `BUFW j`: the four bytes from `BUF[4j]` on, little-endian (10_state.md R36, 20_memory.md R62). -/
def bufWord (buf : Vector Byte 32) (j : Fin 8) : Word :=
  buf[4 * j.val + 3] ++ buf[4 * j.val + 2] ++ buf[4 * j.val + 1] ++ buf[4 * j.val]

/-- A host write of `BUFW j` stores all four bytes (10_state.md R36). -/
def bufWordWrite (buf : Vector Byte 32) (j : Fin 8) (v : Word) : Vector Byte 32 :=
  Vector.ofFn fun k => if k.val / 4 = j.val then v.extractLsb' (8 * (k.val % 4)) 8 else buf[k]

/-! Channels (10_state.md R37, R38). -/

/-- `CHW j`: `CH[2j]` in the low half, `CH[2j+1]` in the high half. -/
def chWord (ch : Vector Half 18) (j : Fin 9) : Word := ch[2 * j.val + 1] ++ ch[2 * j.val]

/-- `SRW j`: `SORTED[2j]` in the low half, `SORTED[2j+1]` in the high half. -/
def sortedWord (sorted : Vector Half 12) (j : Fin 6) : Word := sorted[2 * j.val + 1] ++ sorted[2 * j.val]

/-- `SORTED[k] <- CH[SORTED_PERM[k]]` for `k` in 0..11 (43_acquisition.md R190). -/
def sortedView (ch : Vector Half 18) : Vector Half 12 := Vector.ofFn fun k => ch[sortPerm[k]]

/-! Fields of target registers. -/

/-- `1 << n` in a byte. -/
def bitMask (n : Nat) : Byte := 1#8 <<< n

/-- The byte a read-modify-write writes: `(V & ~clear) | set` (40_bus_adapter.md R134). -/
def rmwByte (v clear set : Byte) : Byte := (v &&& ~~~clear) ||| set

/-- The byte `SelectBank(b)` writes to `CFG0_REG` (41_bank_identity.md R150). -/
def bankByte (p : Params) (v : Byte) (b : BitVec 1) : Byte :=
  rmwByte v (bitMask p.bankBit.val) (b.zeroExtend 8 <<< p.bankBit.val)

/-- The mask of the lower 5 bits of `GAIN_REG` (42_configuration.md R168). -/
def gainMask : Byte := 0x1F

/-- The mask of the 2-bit channel-cycling field of `SMUX_REG` (42_configuration.md R166). -/
def smuxMask (p : Params) : Byte := 0b11#8 <<< p.smuxLsb.val

/-- The value that selects 18-channel cycling, in its place in `SMUX_REG` (42_configuration.md R166). -/
def smuxValue (p : Params) : Byte := p.smux18ch.zeroExtend 8 <<< p.smuxLsb.val

/-- `DEFAULT_GAIN` as a byte. -/
def defaultGainByte (p : Params) : Byte := BitVec.ofNat 8 p.defaultGain.val

/-- The register of the low byte of channel `i`: `DATA_BASE + 2*i` (43_acquisition.md R188). -/
def channelReg (p : Params) (i : Fin 18) : BitVec 8 := p.dataBase + BitVec.ofNat 8 (2 * i.val)

/-- The register is one of the 36 data registers. -/
def isDataReg (p : Params) (r : BitVec 8) : Bool :=
  decide (p.dataBase.toNat ≤ r.toNat) && decide (r.toNat ≤ p.dataBase.toNat + 35)

/-- A burst of `n` bytes from `r` at target `a` covers the bank register of the device (40_bus_adapter.md R135). -/
def coversBankReg (p : Params) (a : BitVec 7) (r : BitVec 8) (n : BitVec 6) : Bool :=
  decide (a = p.devAddr) && decide (r.toNat ≤ p.cfg0Reg.toNat) && decide (p.cfg0Reg.toNat ≤ r.toNat + n.toNat - 1)

/-! The CSR window (10_state.md R22). -/

/-- The byte offset of a register of the window. -/
def Csr.offset : Csr → BitVec 8
  | .cmd => 0x00
  | .arg => 0x04
  | .status => 0x08
  | .timeout => 0x0C
  | .time => 0x10
  | .result => 0x14
  | .bufw j => BitVec.ofNat 8 (0x20 + 4 * j.val)
  | .chw j => BitVec.ofNat 8 (0x40 + 4 * j.val)
  | .srw j => BitVec.ofNat 8 (0x64 + 4 * j.val)

/-- The register of index `k`, at byte offset `4*k`; `none` is a reserved offset. -/
def Csr.ofIndex (k : Nat) : Option Csr :=
  if h : 8 ≤ k ∧ k < 16 then some (.bufw ⟨k - 8, by omega⟩)
  else if h : 16 ≤ k ∧ k < 25 then some (.chw ⟨k - 16, by omega⟩)
  else if h : 25 ≤ k ∧ k < 31 then some (.srw ⟨k - 25, by omega⟩)
  else match k with
    | 0 => some .cmd
    | 1 => some .arg
    | 2 => some .status
    | 3 => some .timeout
    | 4 => some .time
    | 5 => some .result
    | _ => none

/-- The register at an aligned byte offset of the window; `none` is a reserved offset (10_state.md R39). -/
def Csr.atOffset (off : BitVec 8) : Option Csr := Csr.ofIndex (off.toNat / 4)

end Sys2Proof.Machine
end

