-- ==== Sys2Proof/Machine/Flags.lean ====
section
/-! DEFINITION. The fields of `STATUS` and `RESULT`: the failure codes (60_exceptions.md R220), what issue and completion do to
`STATUS` (10_state.md R26), the valid flags (R30, R31), the bank mirror (R27), the counters (R35), and the host's view of
both words. -/

namespace Sys2Proof.Machine

/-- The 4-bit code of a failure (60_exceptions.md R220). -/
def ErrCode.code : ErrCode → BitVec 4
  | .none => 0
  | .nack => 1
  | .short => 2
  | .timeout => 3
  | .illegal => 4
  | .badarg => 5
  | .bank => 6
  | .idMismatch => 7

/-- A flag as one bit. -/
def flagBit (b : Bool) : BitVec 1 := BitVec.ofBool b

/-- The host's view of `STATUS` (10_state.md R25). -/
def Status.word (t : Status) : Word :=
  0#20 ++ t.err ++ t.bank ++ flagBit t.werr ++ flagBit t.sortedValid ++ flagBit t.chValid ++ flagBit t.ok ++ flagBit t.done
    ++ flagBit t.busy

/-- The host's view of `RESULT` (10_state.md R35). -/
def Result.word (t : Result) : Word := t.txcount ++ t.rcount ++ t.idValue

/-- What issue does to `STATUS` (30_encoding.md R101). -/
def Status.issued (t : Status) : Status :=
  { t with busy := true, done := false, ok := false, err := ErrCode.none.code, werr := false }

/-- What `complete(ok, code)` does to `STATUS` (60_exceptions.md R223). -/
def Status.completed (t : Status) (ok : Bool) (code : BitVec 4) : Status :=
  { t with ok := ok, err := code, done := true, busy := false }

/-- What issue does to `RESULT` (30_encoding.md R101). -/
def Result.issued (t : Result) : Result := (t.setRcount 0).setTxcount 0

/-- `STATUS.CH_VALID <- 0 ; STATUS.SORTED_VALID <- 0` (43_acquisition.md R188). -/
def Status.readingStarted (t : Status) : Status := (t.setChValid false).setSortedValid false

/-- The mirror value 0b11, unknown (10_state.md R27). -/
def bankUnknown : BitVec 2 := 0b11

/-- The mirror value of a known bank: `zext_2(b)` (41_bank_identity.md R150). -/
def bankMirror (b : BitVec 1) : BitVec 2 := b.zeroExtend 2

/-- The bank that a byte written to `CFG0_REG` selects: its bit `BANK_BIT` (40_bus_adapter.md R135). -/
def bankOfByte (p : Params) (v : Byte) : BitVec 1 := v.extractLsb' p.bankBit.val 1

/-- `min(TXCOUNT + 1, 0xFFFF)` (40_bus_adapter.md R130). -/
def countUp (n : BitVec 16) : BitVec 16 := if n = 0xFFFF#16 then n else n + 1

end Sys2Proof.Machine
end

