-- ==== Sys2Proof/Machine/Memory.lean ====
section
/-! DEFINITION. The registers of the reference target as a canonical list of cells (20_memory.md R76). -/

namespace Sys2Proof.Machine

/-- The canonical form: addresses strictly rising. An unlisted address has no value, so no entry can repeat what an unlisted
address reads as. -/
def Memory.wf : Memory → Bool
  | [] => true
  | [_] => true
  | x :: y :: m => decide (x.1 < y.1) && Memory.wf (y :: m)

/-- The byte stored at an address, if any was. -/
def Memory.read (a : Nat) : Memory → Option Byte
  | [] => none
  | x :: m => if x.1 = a then some x.2 else Memory.read a m

/-- Store a byte at an address, keeping the canonical form. -/
def Memory.write (a : Nat) (v : Byte) : Memory → Memory
  | [] => [(a, v)]
  | x :: m => if a < x.1 then (a, v) :: x :: m else if a = x.1 then (a, v) :: m else x :: Memory.write a v m

/-- Every listed address is below `n`. -/
def Memory.below (n : Nat) (m : Memory) : Bool := m.all fun x => decide (x.1 < n)

end Sys2Proof.Machine
end

