-- ==== Sys2Proof/Machine/RefTarget.lean ====
section
/-! DEFINITION. The bus target: the reference target's registers and transactions (20_memory.md R76, R77), the oracle's draws
(R75), and the answer to one write and one read transaction (40_bus_adapter.md R130, R131, R132). -/

namespace Sys2Proof.Machine

/-! The registers of the reference target. -/

/-- `REGS[r]`; a register nothing has stored holds a free value (log 9). -/
def Target.reg (t : Target) (r : BitVec 8) : Byte :=
  (t.regs.read r.toNat).getD (Config.powerUpByte t.powerUps false r)

/-- `REGS1[r]`; a register nothing has stored holds a free value (log 9). -/
def Target.reg1 (t : Target) (r : BitVec 8) : Byte :=
  (t.regs1.read r.toNat).getD (Config.powerUpByte t.powerUps true r)

/-- The target's current bank is `REGS[CFG0_REG][BANK_BIT]`; true is bank 1 (20_memory.md R76). -/
def Target.inBank1 (p : Params) (t : Target) : Bool := (t.reg p.cfg0Reg).getLsbD p.bankBit.val

/-- Store one byte into the register that `r` resolves to; a store into an unspecified register is lost (R76, R77). -/
def Target.storeReg (p : Params) (r : BitVec 8) (v : Byte) (t : Target) : Target :=
  if 0x80 ≤ r.toNat then t.setRegs (t.regs.write r.toNat v)
  else if t.inBank1 p then t.setRegs1 (t.regs1.write r.toNat v)
  else t

/-- Store a burst from register `r` on, incrementing the pointer modulo 256 after each byte (R77). -/
def Target.storeBurst (p : Params) (r : BitVec 8) : List Byte → Target → Target
  | [], t => t.setPtr r
  | v :: vs, t => Target.storeBurst p (r + 1) vs (t.storeReg p r v)

/-- Stores, one after the other, as an environment draw lists them. -/
def Target.storeAll (p : Params) : List (BitVec 8 × Byte) → Target → Target
  | [], t => t
  | x :: xs, t => Target.storeAll p xs (t.storeReg p x.1 x.2)

/-- Read the register that `r` resolves to; an unspecified register gives any byte (R76, R77). -/
def Target.fetchReg (p : Params) (r : BitVec 8) (t : Target) : Byte × Target :=
  if 0x80 ≤ r.toNat then (t.reg r, t)
  else if t.inBank1 p then (t.reg1 r, t)
  else (Config.freeByte t.draws, t.setDraws (t.draws + 1))

/-- Read a burst of `n` bytes from register `r` on, incrementing the pointer modulo 256 after each byte (R77). -/
def Target.fetchBurst (p : Params) : Nat → BitVec 8 → Target → List Byte × Target
  | 0, r, t => ([], t.setPtr r)
  | n + 1, r, t =>
    let one := t.fetchReg p r
    let more := Target.fetchBurst p n (r + 1) one.2
    (one.1 :: more.1, more.2)

/-! Answers. -/

/-- Whether the reference target is the device a transaction to `a` reaches (R77). -/
def Target.isDevice (p : Params) (a : BitVec 7) (t : Target) : Bool :=
  decide (t.kind = .reference) && decide (a = p.devAddr)

/-- What answers when the script is silent about it: a draw of the oracle, or the reference target by itself (`none`). -/
def Target.ownAnswer (t : Target) : Option Draw × Target :=
  match t.kind with
  | .oracle => (some (Config.freeDraw t.draws), t.setDraws (t.draws + 1))
  | .reference => (none, t)

/-- The answer to the next transaction: the script's next entry, and past its end the target's own (log 7, DESIGN CHOICE, safe). -/
def Target.nextAnswer (t : Target) : Option Draw × Target :=
  match t.script with
  | [] => t.ownAnswer
  | some d :: rest => (some d, t.setScript rest)
  | none :: rest => (t.setScript rest).ownAnswer

/-- The outcome of a write transaction (40_bus_adapter.md R130). -/
inductive WriteOutcome where
  /-- Every byte was acknowledged. -/
  | ack
  /-- The address byte was not acknowledged. -/
  | nackAddr
  /-- Byte `k` of `[r, d0, ...]` was not acknowledged. -/
  | nackData (k : Nat)
  deriving DecidableEq, Repr

/-- The outcome of the pointer phase of a read transaction (40_bus_adapter.md R131). -/
inductive PointerOutcome where
  /-- The address and the register byte were acknowledged. -/
  | ack
  /-- The address byte was not acknowledged. -/
  | nackAddr
  /-- The register byte was not acknowledged. -/
  | nackReg
  deriving DecidableEq, Repr

/-- The registers of the device after bytes reached it from register `r` on; nothing where no modelled device is reached. -/
def Target.absorb (p : Params) (a : BitVec 7) (r : BitVec 8) (bytes : List Byte) (t : Target) : Target :=
  if t.isDevice p a then t.storeBurst p r bytes else t

/-- The device as `left` says: its registers and `PTR` (DESIGN CHOICE, safe: log 10). -/
def Target.leave (p : Params) (left : Leftover) (t : Target) : Target :=
  (t.storeAll p left.stores).setPtr (left.ptr.getD t.ptr)

/-- The device after a transaction that failed: registers and `PTR` are what the draw `left` says, any state (R130, U1, U4;
DESIGN CHOICE, safe: log 10); nothing where no modelled device is reached. -/
def Target.disturb (p : Params) (a : BitVec 7) (left : Leftover) (t : Target) : Target :=
  if t.isDevice p a then t.leave p left else t

/-- The pointer of the device after a read phase of `m` bytes from register `r` on (R77). -/
def Target.point (p : Params) (a : BitVec 7) (r : BitVec 8) (m : Nat) (t : Target) : Target :=
  t.setPtr (if t.isDevice p a then r + BitVec.ofNat 8 m else t.ptr)

/-- The answer to a write transaction and the target after it; `none` if the target never answers (R130, R132). A NACK of a
byte that the transaction does not send is no NACK (DESIGN CHOICE, safe: log 10). -/
def Target.write (p : Params) (a : BitVec 7) (r : BitVec 8) (bytes : List Byte) (t : Target) :
    Option (WriteOutcome × Target) :=
  match t.nextAnswer with
  | (none, t') => if a = p.devAddr then some (.ack, t'.absorb p a r bytes) else some (.nackAddr, t')
  | (some .silent, _) => none
  | (some (.nackAddr left), t') => some (.nackAddr, t'.disturb p a left)
  | (some (.nackByte k left), t') =>
    if k ≤ bytes.length then some (.nackData k, t'.disturb p a left)
    else some (.ack, t'.absorb p a r bytes)
  | (some (.short _ _), t') => some (.ack, t'.absorb p a r bytes)
  | (some (.ok _), t') => some (.ack, t'.absorb p a r bytes)

/-- The answer to a read transaction of `n` bytes: the outcome of its pointer phase, the bytes of its read phase, and the
target after it; `none` if the target never answers (R131, R132). -/
def Target.read (p : Params) (a : BitVec 7) (r : BitVec 8) (n : Nat) (t : Target) :
    Option (PointerOutcome × List Byte × Target) :=
  match t.nextAnswer with
  | (none, t') =>
    if a = p.devAddr then some (.ack, (t'.fetchBurst p n r).1, (t'.fetchBurst p n r).2) else some (.nackAddr, [], t')
  | (some .silent, _) => none
  | (some (.nackAddr left), t') => some (.nackAddr, [], t'.disturb p a left)
  | (some (.nackByte _ left), t') => some (.nackReg, [], t'.disturb p a left)
  | (some (.short bytes left), t') => some (.ack, bytes.take (n - 1), t'.disturb p a left)
  | (some (.ok bytes), t') => some (.ack, bytes.take n, t'.point p a r (bytes.take n).length)

/-! What the target does by itself. -/

/-- The sensor engine may change the status register and the data registers of the reference target, and no other
(20_memory.md R77). -/
def Target.engineStore (p : Params) (r : BitVec 8) (v : Byte) (t : Target) : Target :=
  if t.kind = .reference ∧ (r = p.statusReg ∨ isDataReg p r = true) then t.setRegs (t.regs.write r.toNat v) else t

/-- A power cycle of the target: no register has a known value after it (70_reset_and_hazards.md R262, U18). -/
def Target.powerCycle (t : Target) : Target :=
  (((t.setRegs []).setRegs1 []).setPtr 0).setPowerUps (t.powerUps + 1)

/-- A script whose next answer is silence loses it when the controller is reset and releases the bus. -/
def dropSilence : List (Option Draw) → List (Option Draw)
  | some .silent :: rest => rest
  | script => script

/-- A reset of the controller cuts a transaction to address `a` short: the registers and `PTR` of the device it reached are what
the draw `cut` says, nothing where it reached none (70_reset_and_hazards.md R260, U12; DEDUCED, unsafe: log 11). -/
def Target.cutOff (p : Params) (a : BitVec 7) (cut : Leftover) (t : Target) : Target :=
  ((t.disturb p a cut).setScript (dropSilence t.script)).setDraws (t.draws + 1)

end Sys2Proof.Machine
end

