-- ==== Sys2Proof/Machine/Ops.lean ====
section
/-! DEFINITION. The shared operations of the controller: issue (30_encoding.md R101), completion and failure (60_exceptions.md
R222, R223), the bus primitives (40_bus_adapter.md R130, R131), the helpers over them (R133, R134), `SelectBank`
(41_bank_identity.md R150), `DelayMs` (42_configuration.md R165) and `WaitReady` (43_acquisition.md R185). -/

namespace Sys2Proof.Machine

/-! Issue, completion, failure. -/

/-- The command context at issue: `SEG` at the first statement. The other fields are written before
they are read; 0 is a DESIGN CHOICE, unsafe (log 16). -/
def Ctx.fresh : Ctx where
  seg := .start
  t0 := 0
  e := 0
  v := 0
  stg := 0
  i := 0

/-- Issue of the word `w` (30_encoding.md R101). -/
def issue (w : Word) (s : State) : State :=
  (((s.setCmd w).setStatus s.status.issued).setResult s.result.issued).setCtx (some Ctx.fresh)

/-- `complete(ok, code)` (60_exceptions.md R223). -/
def complete (ok : Bool) (code : BitVec 4) (s : State) : State :=
  (s.setStatus (s.status.completed ok code)).setCtx none

/-- `raise Fail(code)`, the controller's counterpart of taking an exception: it ends the command with `complete(0, code)`
(60_exceptions.md R222, R225). There is no return from it (R226). -/
def fail (code : ErrCode) (s : State) : State := complete false code.code s

/-- `complete(1, NONE)`. -/
def succeed (s : State) : State := complete true ErrCode.none.code s

/-- The position in the pseudocode and the rest of the context become `c` (30_encoding.md R107). -/
def resume (c : Ctx) (s : State) : State := s.setCtx (some c)

/-- Run a segment of the command in progress (30_encoding.md R107). -/
def inCommand (s : State) (k : Ctx → Out) : Out :=
  match s.ctx with
  | none => .fault .noCommand
  | some c => k c

/-- `STATUS.BANK <- m`. -/
def setMirror (m : BitVec 2) (s : State) : State := s.setStatus (s.status.setBank m)

/-! The bus primitives. -/

/-- `RESULT.TXCOUNT <- min(RESULT.TXCOUNT + 1, 0xFFFF)` (40_bus_adapter.md R130). -/
def countTransaction (s : State) : State := s.setResult (s.result.setTxcount (countUp s.result.txcount))

/-- `RESULT.RCOUNT <- m` (40_bus_adapter.md R131). -/
def setRcount (m : Nat) (s : State) : State := s.setResult (s.result.setRcount (BitVec.ofNat 8 m))

/-- `BusWrite(a, r, bytes)` (40_bus_adapter.md R130); `none` if the target never answers (R132). -/
def busWrite (a : BitVec 7) (r : BitVec 8) (bytes : List Byte) (s : State) : Option (WriteOutcome × State) :=
  match s.target.write s.params a r bytes with
  | none => none
  | some (o, t) => some (o, (countTransaction s).setTarget t)

/-- `BusRead(a, r, n)` (40_bus_adapter.md R131): the code and the bytes returned; `none` if the target never answers. -/
def busRead (a : BitVec 7) (r : BitVec 8) (n : Nat) (s : State) : Option ((ErrCode × List Byte) × State) :=
  match s.target.read s.params a r n with
  | none => none
  | some (.ack, bytes, t) =>
    some ((if bytes.length = n then .none else .short, bytes), setRcount bytes.length ((countTransaction s).setTarget t))
  | some (_, _, t) => some ((.nack, []), setRcount 0 ((countTransaction s).setTarget t))

/-- A segment whose primitive call is a write: `k` is the rest of the segment. A target that never answers gives `CTRL` no
step: nothing changes (30_encoding.md R107, 40_bus_adapter.md R132; DEDUCED, unsafe: log 8). -/
def onWrite (a : BitVec 7) (r : BitVec 8) (bytes : List Byte) (s : State) (k : WriteOutcome → State → State) : Out :=
  .next (match busWrite a r bytes s with
    | none => s
    | some (o, s') => k o s')

/-- A segment whose primitive call is a read: `k` is the rest of the segment. As `onWrite` for a target that never answers. -/
def onRead (a : BitVec 7) (r : BitVec 8) (n : Nat) (s : State) (k : ErrCode → List Byte → State → State) : Out :=
  .next (match busRead a r n s with
    | none => s
    | some (x, s') => k x.1 x.2 s')

/-! Helpers for the target at `DEV_ADDR` (40_bus_adapter.md R133, R134). -/

/-- `Wr(r, bytes)`: one write transaction, fail on any NACK. -/
def wr (r : BitVec 8) (bytes : List Byte) (s : State) (k : State → State) : Out :=
  onWrite s.params.devAddr r bytes s fun o s' => if o = .ack then k s' else fail .nack s'

/-- `Rd(r, n)`: one read transaction, fail with its code. -/
def rd (r : BitVec 8) (n : Nat) (s : State) (k : List Byte → State → State) : Out :=
  onRead s.params.devAddr r n s fun code bytes s' => if code = .none then k bytes s' else fail code s'

/-- The first transaction of a read-modify-write: `V <- Rd(r, 1)[0]`, then on to `next` (40_bus_adapter.md R134). -/
def rmwRead (r : BitVec 8) (next : Seg) (c : Ctx) (s : State) : Out :=
  rd r 1 s fun bytes => resume { c with seg := next, v := bytes.headD 0 }

/-- The second transaction of a read-modify-write: `Wr(r, [(V & ~clear) | set])` (40_bus_adapter.md R134). -/
def rmwWrite (r : BitVec 8) (clear set : Byte) (c : Ctx) (s : State) (k : State → State) : Out :=
  wr r [rmwByte c.v clear set] s k

/-! `SelectBank(b)` (41_bank_identity.md R150). -/

/-- Transaction 1: `V <- Rd(CFG0_REG, 1)[0]`, then on to transaction 2. -/
def selectBankRead (next : Seg) (c : Ctx) (s : State) : Out := rmwRead s.params.cfg0Reg next c s

/-- `Try` of transaction 1: `k` gets the code of its failure, or `NONE`, and the byte read. -/
def tryBankRead (s : State) (k : ErrCode → Byte → State → State) : Out :=
  onRead s.params.devAddr s.params.cfg0Reg 1 s fun code bytes => k code (bytes.headD 0)

/-- `Try` of transaction 2, with its updates of the mirror: `k` gets the code of its failure, or `NONE`. -/
def tryBankWrite (b : BitVec 1) (c : Ctx) (s : State) (k : ErrCode → State → State) : Out :=
  onWrite s.params.devAddr s.params.cfg0Reg [bankByte s.params c.v b] s fun o s' =>
    if o = .ack then k .none (setMirror (bankMirror b) s') else k .nack (setMirror bankUnknown s')

/-- Transaction 2: fail on any NACK. -/
def selectBankWrite (b : BitVec 1) (c : Ctx) (s : State) (k : State → State) : Out :=
  tryBankWrite b c s fun code s' => if code = .none then k s' else fail code s'

/-! `Now()`, `DelayMs` and `WaitReady`. -/

/-- `(t - T0) mod 2^32 ≥ d` at `t = Now()` (42_configuration.md R165, 43_acquisition.md R185). -/
def elapsed (d : Word) (c : Ctx) (s : State) : Bool := decide (d.toNat ≤ (s.nowMs - c.t0).toNat)

/-- `T0 <- Now()`, then on to `next`. -/
def latchNow (next : Seg) (c : Ctx) (s : State) : Out := .next (resume { c with seg := next, t0 := s.nowMs } s)

/-- The loop of `DelayMs(d)`: exit to `next` once `d` milliseconds have passed (42_configuration.md R165). -/
def delayCheck (d : Word) (next : Seg) (c : Ctx) (s : State) : Out :=
  .next (resume { c with seg := if elapsed d c s then next else .delayLoop } s)

/-- The time check of `WaitReady(TIMEOUT)` (43_acquisition.md R185). -/
def waitTimeCheck (c : Ctx) (s : State) : Out :=
  .next (if elapsed s.timeout c s then fail .timeout s else resume { c with seg := .poll } s)

/-- The ready bit of a byte of `STATUS_REG`. -/
def readyBit (p : Params) (v : Byte) : Bool := v.getLsbD p.avalidBit.val

/-- The poll of `WaitReady`: on to `k` when the ready bit is set, back to the time check when not (43_acquisition.md R185). -/
def waitPoll (c : Ctx) (s : State) (k : State → State) : Out :=
  rd s.params.statusReg 1 s fun bytes s' =>
    if readyBit s.params (bytes.headD 0) then k s' else resume { c with seg := .waitCheck } s'

/-! An illegal word. -/

/-- The one segment of an illegal command word: no transaction, `complete(0, ILLEGAL)` (30_encoding.md R103). -/
def runIllegal (s : State) : State := fail .illegal s

end Sys2Proof.Machine
end

