-- ==== Sys2Proof/Machine/Acquire.lean ====
section
/-! DEFINITION. The data-ready wait and the channel reading: `WAIT_DATA_READY`, `READ_ALL`, `GET_SORTED`
(43_acquisition.md). -/

namespace Sys2Proof.Machine

/-- `WAIT_DATA_READY` (43_acquisition.md R186): `WaitReady(TIMEOUT)`. -/
def execWaitDataReady (s : State) : Out :=
  inCommand s fun c => match c.seg with
    | .start => latchNow .waitCheck c s
    | .waitCheck => waitTimeCheck c s
    | .poll => waitPoll c s succeed
    | _ => .fault .foreignSegment

/-- The first statements of `READ_ALL`, done with transaction 1: the valid flags are cleared (43_acquisition.md R188). -/
def startReading (s : State) : State := s.setStatus s.status.readingStarted

/-- `STG <- bytes ; CH[I] <- {STG[1], STG[0]}`, then the next channel, or `finish` after the last (43_acquisition.md R188). -/
def storeChannel (c : Ctx) (finish : State → State) (bytes : List Byte) (s : State) : State :=
  let stg := littleEndian (bytes.getD 0 0) (bytes.getD 1 0)
  let s' := s.setCh (s.ch.set c.i.val stg c.i.isLt)
  if h : c.i.val + 1 < 18 then resume { c with stg := stg, i := ⟨c.i.val + 1, h⟩ } s' else finish s'

/-- The body that `READ_ALL` and `GET_SORTED` share: bank 0, the wait, 18 two-byte reads, then `finish`
(43_acquisition.md R188). -/
def acquire (finish : State → State) (s : State) : Out :=
  inCommand s fun c => match c.seg with
    | .start => tryBankRead s fun code v s' =>
        if code = .none then resume { c with seg := .bankWrite, v := v } (startReading s')
        else fail code (startReading s')
    | .bankWrite => selectBankWrite 0 c s (resume { c with seg := .waitStart })
    | .waitStart => latchNow .waitCheck c s
    | .waitCheck => waitTimeCheck c s
    | .poll => waitPoll c s (resume { c with seg := .channel, i := 0 })
    | .channel => rd (channelReg s.params c.i) 2 s (storeChannel c finish)
    | _ => .fault .foreignSegment

/-- `STATUS.CH_VALID <- 1`. -/
def validateChannels (s : State) : State := s.setStatus (s.status.setChValid true)

/-- `SORTED[k] <- CH[SORTED_PERM[k]]` for every `k`, then `STATUS.SORTED_VALID <- 1` (43_acquisition.md R190). -/
def sortChannels (s : State) : State :=
  (s.setSorted (sortedView s.ch)).setStatus (s.status.setSortedValid true)

/-- `READ_ALL` (43_acquisition.md R188). -/
def execReadAll (s : State) : Out := acquire (fun s' => succeed (validateChannels s')) s

/-- `GET_SORTED` (43_acquisition.md R190): the permutation is applied in the same step as the last channel read. -/
def execGetSorted (s : State) : Out := acquire (fun s' => succeed (sortChannels (validateChannels s'))) s

end Sys2Proof.Machine
end

