-- ==== Sys2Proof/Machine/Bank.lean ====
section
/-! DEFINITION. Bank selection and the identity check: `SET_BANK` (41_bank_identity.md R151) and `IS_CONNECTED` (R153). -/

namespace Sys2Proof.Machine

/-- `SET_BANK` (41_bank_identity.md R151): `SelectBank(ARG[0])`. -/
def execSetBank (s : State) : Out :=
  inCommand s fun c => match c.seg with
    | .start => selectBankRead .bankWrite c s
    | .bankWrite => selectBankWrite (argBank s.arg) c s succeed
    | _ => .fault .foreignSegment

/-- `E <- IDMISMATCH` if the identity byte differs (41_bank_identity.md R153). -/
def identityVerdict (p : Params) (e : BitVec 4) (v : Byte) : BitVec 4 :=
  if v = p.expectedId then e else ErrCode.idMismatch.code

/-- The end of `IS_CONNECTED`: `if E = NONE: E <- c3`, then `complete(E = NONE, E)` (41_bank_identity.md R153). -/
def finishIdentity (c : Ctx) (c3 : ErrCode) (s : State) : State :=
  let e := if c.e = ErrCode.none.code then c3.code else c.e
  complete (decide (e = ErrCode.none.code)) e s

/-- `IS_CONNECTED` (41_bank_identity.md R153). `E` keeps the first failure; the switch back to bank 0 is always attempted.
`TXCOUNT` counts the transactions that the pseudocode makes, so it is 2 where transaction 1 and the read of the switch back both
fail, though R153 gives the range 3 to 5 (DEDUCED, unsafe: log 19). A final selection that fails at its read leaves the mirror as
it was, as R150 has it, so it is still 0b00 where it was 0b00 before and transaction 1 failed too, though R154 says 0b01 or 0b11
(DEDUCED, unsafe: log 20). -/
def execIsConnected (s : State) : Out :=
  inCommand s fun c => match c.seg with
    | .start => tryBankRead s fun code v s' =>
        if code = .none then resume { c with seg := .bankWrite, e := ErrCode.none.code, v := v } s'
        else resume { c with seg := .backRead, e := code.code } s'
    | .bankWrite => tryBankWrite 1 c s fun code s' =>
        if code = .none then resume { c with seg := .idRead } s'
        else resume { c with seg := .backRead, e := code.code } s'
    | .idRead => onRead s.params.devAddr s.params.idReg 1 s fun code bytes s' =>
        if code = .none then
          let v := bytes.headD 0
          resume { c with seg := .backRead, e := identityVerdict s.params c.e v }
            (s'.setResult (s'.result.setIdValue v))
        else resume { c with seg := .backRead, e := code.code } s'
    | .backRead => tryBankRead s fun code v s' =>
        if code = .none then resume { c with seg := .backWrite, v := v } s' else finishIdentity c code s'
    | .backWrite => tryBankWrite 0 c s (finishIdentity c)
    | _ => .fault .foreignSegment

end Sys2Proof.Machine
end

