-- ==== Sys2Proof/Machine/Bus.lean ====
section
/-! DEFINITION. The raw bus commands `WRITE` and `READ` (40_bus_adapter.md R135 to R137). -/

namespace Sys2Proof.Machine

/-- The raw-write snoop (40_bus_adapter.md R135): a burst that covers the bank register sets the mirror from the byte
written to it, or to unknown where the burst failed. -/
def snoop (a : BitVec 7) (r : BitVec 8) (n : BitVec 6) (o : WriteOutcome) (s : State) : State :=
  if coversBankReg s.params a r n then
    if o = .ack then
      let written := (bufPrefix s.buf n.toNat).getD (s.params.cfg0Reg.toNat - r.toNat) 0
      setMirror (bankMirror (bankOfByte s.params written)) s
    else setMirror bankUnknown s
  else s

/-- `WRITE a, r, n` (40_bus_adapter.md R136). -/
def execWrite (a : BitVec 7) (r : BitVec 8) (n : BitVec 6) (s : State) : Out :=
  inCommand s fun c => match c.seg with
    | .start =>
      if burstOk r n then
        onWrite a r (bufPrefix s.buf n.toNat) s fun o s' =>
          if o = .ack then succeed (snoop a r n o s') else fail .nack (snoop a r n o s')
      else .next (fail .badarg s)
    | _ => .fault .foreignSegment

/-- `READ a, r, n` (40_bus_adapter.md R137). -/
def execRead (a : BitVec 7) (r : BitVec 8) (n : BitVec 6) (s : State) : Out :=
  inCommand s fun c => match c.seg with
    | .start =>
      if burstOk r n then
        onRead a r n.toNat s fun code bytes s' =>
          let filled := s'.setBuf (bufFill s'.buf bytes)
          if code = .none then succeed filled else fail code filled
      else .next (fail .badarg s)
    | _ => .fault .foreignSegment

end Sys2Proof.Machine
end

