-- ==== Sys2Proof/Machine/Configure.lean ====
section
/-! DEFINITION. Power-on and configuration: `INIT`, `SET_GAIN`, `SET_ITIME`, `SET_TIMEOUT` (42_configuration.md). -/

namespace Sys2Proof.Machine

/-- `INIT` (42_configuration.md R166): bank 0, power on, the stabilisation delay, 18-channel cycling, the default gain,
measurement enable. Every step is a read-modify-write, and the first failure ends the command. -/
def execInit (s : State) : Out :=
  inCommand s fun c => match c.seg with
    | .start => selectBankRead .bankWrite c s
    | .bankWrite => selectBankWrite 0 c s (resume { c with seg := .ponRead })
    | .ponRead => rmwRead s.params.enableReg .ponWrite c s
    | .ponWrite => rmwWrite s.params.enableReg 0 (bitMask s.params.ponBit.val) c s (resume { c with seg := .delayStart })
    | .delayStart => latchNow .delayLoop c s
    | .delayLoop => delayCheck s.params.stabDelayMs .smuxRead c s
    | .smuxRead => rmwRead s.params.smuxReg .smuxWrite c s
    | .smuxWrite => rmwWrite s.params.smuxReg (smuxMask s.params) (smuxValue s.params) c s
        (resume { c with seg := .gainRead })
    | .gainRead => rmwRead s.params.gainReg .gainWrite c s
    | .gainWrite => rmwWrite s.params.gainReg gainMask (defaultGainByte s.params) c s (resume { c with seg := .spenRead })
    | .spenRead => rmwRead s.params.enableReg .spenWrite c s
    | .spenWrite => rmwWrite s.params.enableReg 0 (bitMask s.params.spenBit.val) c s succeed
    | _ => .fault .foreignSegment

/-- `SET_GAIN` (42_configuration.md R168): the range check, the bank check, then the read-modify-write of `GAIN_REG`. -/
def execSetGain (s : State) : Out :=
  inCommand s fun c => match c.seg with
    | .start =>
      if maxGainCode < (argGain s.arg).toNat then .next (fail .badarg s)
      else if s.status.bank ≠ bankMirror 0 then .next (fail .bank s)
      else rmwRead s.params.gainReg .gainWrite c s
    | .gainWrite => rmwWrite s.params.gainReg gainMask ((argGain s.arg).zeroExtend 8) c s succeed
    | _ => .fault .foreignSegment

/-- `SET_ITIME` (42_configuration.md R170): the bank check, then three one-byte writes. -/
def execSetItime (s : State) : Out :=
  inCommand s fun c => match c.seg with
    | .start =>
      if s.status.bank ≠ bankMirror 0 then .next (fail .bank s)
      else wr s.params.atimeReg [argAtime s.arg] s (resume { c with seg := .astepLow })
    | .astepLow => wr s.params.astepReg [lowByte (argAstep s.arg)] s (resume { c with seg := .astepHigh })
    | .astepHigh => wr (s.params.astepReg + 1) [highByte (argAstep s.arg)] s succeed
    | _ => .fault .foreignSegment

/-- `SET_TIMEOUT` (42_configuration.md R172): `TIMEOUT <- ARG`, no transaction. -/
def execSetTimeout (s : State) : Out :=
  inCommand s fun c => match c.seg with
    | .start => .next (succeed (s.setTimeout s.arg))
    | _ => .fault .foreignSegment

end Sys2Proof.Machine
end

