-- ==== Sys2Proof/Machine/Dispatch.lean ====
section
/-! DEFINITION. One arm per command: `exec i s` is one CTRL segment of command `i` (30_encoding.md R107). -/

namespace Sys2Proof.Machine

def exec (i : Instr) (s : State) : Host.Outcome State Fault Refusal :=
  match i with
  | .write a r n => Sys2Proof.Machine.execWrite a r n s
  | .read a r n => Sys2Proof.Machine.execRead a r n s
  | .setBank => Sys2Proof.Machine.execSetBank s
  | .isConnected => Sys2Proof.Machine.execIsConnected s
  | .init => Sys2Proof.Machine.execInit s
  | .setGain => Sys2Proof.Machine.execSetGain s
  | .setItime => Sys2Proof.Machine.execSetItime s
  | .setTimeout => Sys2Proof.Machine.execSetTimeout s
  | .waitDataReady => Sys2Proof.Machine.execWaitDataReady s
  | .readAll => Sys2Proof.Machine.execReadAll s
  | .getSorted => Sys2Proof.Machine.execGetSorted s

end Sys2Proof.Machine
end

