-- ==== Sys2Proof/Machine/HostPort.lean ====
section
/-! DEFINITION. The CSR window as the host reads and writes it (10_state.md R22 to R42), and reset (70_reset_and_hazards.md R260). -/

namespace Sys2Proof.Machine

/-- The value a host read of a register returns (10_state.md R22). It has no side effect (R42). -/
def csrValue (r : Csr) (s : State) : Word :=
  match r with
  | .cmd => s.cmd
  | .arg => s.arg
  | .status => s.status.word
  | .timeout => s.timeout
  | .time => s.nowMs
  | .result => s.result.word
  | .bufw j => bufWord s.buf j
  | .chw j => chWord s.ch j
  | .srw j => sortedWord s.sorted j

/-- `MemRead(off, 4)`; a reserved offset reads as 0 (10_state.md R39). -/
def csrRead (off : BitVec 8) (s : State) : Word :=
  match Csr.atOffset off with
  | none => 0
  | some r => csrValue r s

/-- A write to `CMD`, `ARG` or a `BUFW` register: dropped with `WERR <- 1` while busy (10_state.md R41). -/
def ifIdle (act : State → State) (s : State) : State :=
  if s.status.busy then s.setStatus (s.status.setWerr true) else act s

/-- `MemWrite(off, 4, v)`: a write to a read-only register or a reserved offset has no effect (10_state.md R39). -/
def csrWrite (off : BitVec 8) (v : Word) (s : State) : State :=
  match Csr.atOffset off with
  | some .cmd => ifIdle (issue v) s
  | some .arg => ifIdle (fun s' => s'.setArg v) s
  | some (.bufw j) => ifIdle (fun s' => s'.setBuf (bufWordWrite s'.buf j v)) s
  | some .status => s
  | some .timeout => s
  | some .time => s
  | some .result => s
  | some (.chw _) => s
  | some (.srw _) => s
  | none => s

/-- The controller's part of a state at its reset values (10_state.md R48). -/
def resetController (s : State) : State :=
  ((((((((s.setCmd 0).setArg 0).setStatus Status.reset).setTimeout 0).setResult Result.reset).setBuf
    (Vector.replicate 32 0)).setCh (Vector.replicate 18 0)).setSorted (Vector.replicate 12 0)).setCtx none

/-- The address that a command's transactions go to: its own for the raw commands (40_bus_adapter.md R136, R137), `DEV_ADDR` for
the driver-level ones (R133). -/
def busAddress (i : Instr) (s : State) : BitVec 7 :=
  match i with
  | .write a _ _ => a
  | .read a _ _ => a
  | .setBank => s.params.devAddr
  | .isConnected => s.params.devAddr
  | .init => s.params.devAddr
  | .setGain => s.params.devAddr
  | .setItime => s.params.devAddr
  | .setTimeout => s.params.devAddr
  | .waitDataReady => s.params.devAddr
  | .readAll => s.params.devAddr
  | .getSorted => s.params.devAddr

/-- The first segment of the command is a transaction: its checks pass (30_encoding.md R106) and it does not begin with `Now()`
or make no transaction at all. -/
def opensOnBus (i : Instr) (s : State) : Bool :=
  match i with
  | .write _ r n => burstOk r n
  | .read _ r n => burstOk r n
  | .setBank => true
  | .isConnected => true
  | .init => true
  | .setGain => decide ((argGain s.arg).toNat ≤ maxGainCode) && decide (s.status.bank = bankMirror 0)
  | .setItime => decide (s.status.bank = bankMirror 0)
  | .setTimeout => false
  | .waitDataReady => false
  | .readAll => true
  | .getSorted => true

/-- The segment at the command's position is a transaction. -/
def onBus (i : Instr) (c : Ctx) (s : State) : Bool :=
  match c.seg with
  | .start => opensOnBus i s
  | .delayStart => false
  | .delayLoop => false
  | .waitStart => false
  | .waitCheck => false
  | _ => true

/-- The address of the transaction in progress, if there is one. A transaction is one step of the model, so it is in progress
while the command stands at the segment that makes it (DEDUCED: log 11). -/
def pendingAddress (s : State) : Option (BitVec 7) :=
  match s.status.busy, s.ctx, decode s.cmd with
  | true, some c, .ok i => if onBus i c s then some (busAddress i s) else none
  | _, _, _ => none

/-- Reset asserted by the host (70_reset_and_hazards.md R260, R262): the controller takes its reset values, a command in
progress is abandoned and a transaction in progress is cut short; the clock and the target are not reset (10_state.md R48). -/
def hostReset (cut : Leftover) (s : State) : State :=
  match pendingAddress s with
  | some a => (resetController s).setTarget (s.target.cutOff s.params a cut)
  | none => resetController s

/-- The offset is a multiple of 4 (20_memory.md R65). -/
def isAligned (off : BitVec 8) : Bool := off.toNat % 4 = 0

/-- The host's program without its next line. -/
def advanceHost (s : State) : State := s.setHost { s.host with prog := s.host.prog.tail }

/-- A host load returns `v`. -/
def returnWord (v : Word) (s : State) : State := s.setHost { s.host with readData := v }

/-- Only a 32-bit access at a multiple of 4 is admitted; any other is refused (20_memory.md R65). -/
def ifAdmitted (w : Width) (off : BitVec 8) (s : State) : Out :=
  match w with
  | .byte => .refused .narrowHostAccess
  | .half => .refused .narrowHostAccess
  | .word => if isAligned off then .next s else .refused .misalignedHostAccess

/-- One access of the host. `WAIT_IDLE` loads `STATUS` and stays in the program while `BUSY` reads 1 (44_pseudo.md R204). -/
def hostAccess (op : HostOp) (s : State) : Out :=
  match op with
  | .load w off => ifAdmitted w off (advanceHost (returnWord (csrRead off s) s))
  | .store w off v => ifAdmitted w off (advanceHost (csrWrite off v s))
  | .waitIdle =>
    let polled := returnWord (csrRead Csr.status.offset s) s
    .next (if s.status.busy then polled else advanceHost polled)
  | .reset cut => .next (advanceHost (hostReset cut s))

/-- A turn of the host: the next access of its program, none if the program has ended. -/
def hostTurn (s : State) : Out :=
  match s.host.prog with
  | [] => .next s
  | op :: _ => hostAccess op s

end Sys2Proof.Machine
end

