-- ==== Sys2Proof/Machine/Agents.lean ====
section
/-! DEFINITION. The turns of the four agents (00_scope.md R6). -/

namespace Sys2Proof.Machine

/-- A turn of `CTRL`: one segment of the command whose word is in `CMD`; while idle it has no step (30_encoding.md R107). -/
def ctrlTurn (s : State) : Out :=
  if s.status.busy then
    match decode s.cmd with
    | .ok i => exec i s
    | .error _ => .next (runIllegal s)
  else .next s

/-- A turn of `CLOCK`: `NOW_MS <- (NOW_MS + 1) mod 2^32` (10_state.md R46). -/
def clockTurn (s : State) : State := s.setNowMs (s.nowMs + 1)

/-- A turn of the agent that an event names. -/
def runEvent (e : Event) (s : State) : Out :=
  match e with
  | .host => hostTurn s
  | .ctrl => ctrlTurn s
  | .clock => .next (clockTurn s)
  | .engine r v => .next (s.setTarget (s.target.engineStore s.params r v))
  | .powerCycle => .next (s.setTarget s.target.powerCycle)

/-- The agent that moves at a turn the agenda leaves open: in each round first `CTRL`, then `CLOCK`, each as often as a free
value says and at least once (DESIGN CHOICE, safe but for which of the two is first: log 4). -/
def openAgent (s : State) : Turn := if s.spent ≤ (Config.freeRound s.rounds).1 then .ctrl else .clock

/-- An open turn is counted; the last one of a round begins the next round (log 4). -/
def countOpen (s : State) : State :=
  if s.spent ≤ (Config.freeRound s.rounds).1 + (Config.freeRound s.rounds).2 then s.setSpent (s.spent + 1)
  else (s.setRounds (s.rounds + 1)).setSpent 0

/-- A turn the agenda leaves open. `CLOCK` is fair over these turns (60_exceptions.md R236), and so is `CTRL`. -/
def openTurn (s : State) : Out :=
  match openAgent s with
  | .clock => .next (clockTurn (countOpen s))
  | .ctrl => ctrlTurn (countOpen s)

/-- The state in which the command word `w` has just been issued and the next turn is `CTRL`'s. -/
def issuedForCtrl (w : Word) (s : State) : State := (issue w s).setAgenda (.ctrl :: s.agenda)

end Sys2Proof.Machine
end

