-- ==== Sys2Proof/Machine/Step.lean ====
section
/-! DEFINITION. The step of the model: the turn of one agent, the agenda's next or an open one (00_scope.md R6; DESIGN CHOICE, safe: log 4). -/

namespace Sys2Proof.Machine

/-- One step: the agent that the agenda names next takes its turn. -/
def step (s : State) : Host.Outcome State Fault Refusal :=
  match s.agenda with
  | e :: rest => runEvent e (s.setAgenda rest)
  | [] => openTurn s

/-- `s` with the command word issued and `CTRL` to move next: the controller fetches nothing, so a word comes to run by the
host's write to `CMD` (20_memory.md R82; DESIGN CHOICE, safe: log 5). -/
def State.withFetchWord (s : State) (nbits w : Nat) : State := issuedForCtrl (tableWord nbits w) s

end Sys2Proof.Machine
end

