-- ==== Sys2Proof/Machine/Pseudo.lean ====
section
/-! DEFINITION. The host's pseudo-instructions and precision presets by their expansions (44_pseudo.md R204 to R209). -/

namespace Sys2Proof.Machine

/-- `sw <CSR>, v` (30_encoding.md R110). -/
def storeCsr (r : Csr) (v : Word) : HostOp := .store .word r.offset v

/-- `lw <CSR>` (30_encoding.md R110). -/
def loadCsr (r : Csr) : HostOp := .load .word r.offset

/-- A command of the assembly language: a store of its word to `CMD` (30_encoding.md R110). -/
def command (i : Instr) : HostOp := storeCsr .cmd (encode i)

/-- `ATIME(p)` (44_pseudo.md R207). -/
def Precision.atime : Precision → Byte
  | .low => 0x00
  | .medium => 0x01
  | .high => 0x00

/-- `ASTEP(p)` (44_pseudo.md R207). -/
def Precision.astep : Precision → Half
  | .low => 999
  | .medium => 20000
  | .high => 65534

/-- `TIMEOUT(p)` in milliseconds (44_pseudo.md R207). -/
def Precision.timeout : Precision → Word
  | .low => 50
  | .medium => 500
  | .high => 800

/-- `ARG` for `SET_ITIME`: `(astep << 8) | atime` (44_pseudo.md R208). -/
def itimeArg (atime : Byte) (astep : Half) : Word := (astep.zeroExtend 32 <<< 8) ||| atime.zeroExtend 32

/-- `SET_ITIME #atime, #astep` (44_pseudo.md R208). -/
def expandSetItime (atime : Byte) (astep : Half) : List HostOp :=
  [storeCsr .arg (itimeArg atime astep), command .setItime, .waitIdle]

/-- `SET_TIMEOUT #ms` (44_pseudo.md R208). -/
def expandSetTimeout (ms : Word) : List HostOp := [storeCsr .arg ms, command .setTimeout, .waitIdle]

/-- The expansion of a pseudo-instruction (44_pseudo.md R204 to R208). -/
def Pseudo.expand : Pseudo → List HostOp
  | .waitIdle => [.waitIdle]
  | .writeByte a r v => [storeCsr (.bufw 0) (v.zeroExtend 32), command (.write a r 1), .waitIdle]
  | .readByte a r => [command (.read a r 1), .waitIdle, loadCsr (.bufw 0)]
  | .setBank b => [storeCsr .arg b, command .setBank, .waitIdle]
  | .setGain g => [storeCsr .arg g, command .setGain, .waitIdle]
  | .setItime atime astep => expandSetItime atime astep
  | .setTimeout ms => expandSetTimeout ms
  | .setPrecision p => expandSetItime p.atime p.astep ++ expandSetTimeout p.timeout

end Sys2Proof.Machine
end

