-- ==== Sys2Proof/Safety.lean ====
section
/-! DEFINITION. What counts as a safe run: the positions of each command, the invariant of the controller's state, and the
notions the statements use. -/

namespace Sys2Proof.Machine

/-- The positions a command's pseudocode has (10_state.md R21, 30_encoding.md R107). -/
def segments (i : Instr) : List Seg :=
  match i with
  | .write _ _ _ => [.start]
  | .read _ _ _ => [.start]
  | .setBank => [.start, .bankWrite]
  | .isConnected => [.start, .bankWrite, .idRead, .backRead, .backWrite]
  | .init => [.start, .bankWrite, .ponRead, .ponWrite, .delayStart, .delayLoop, .smuxRead, .smuxWrite, .gainRead,
      .gainWrite, .spenRead, .spenWrite]
  | .setGain => [.start, .gainWrite]
  | .setItime => [.start, .astepLow, .astepHigh]
  | .setTimeout => [.start]
  | .waitDataReady => [.start, .waitCheck, .poll]
  | .readAll => [.start, .bankWrite, .waitStart, .waitCheck, .poll, .channel]
  | .getSorted => [.start, .bankWrite, .waitStart, .waitCheck, .poll, .channel]

/-- The command is `READ_ALL` or `GET_SORTED`. -/
def isReading (i : Instr) : Bool :=
  match i with
  | .readAll => true
  | .getSorted => true
  | .write _ _ _ => false
  | .read _ _ _ => false
  | .setBank => false
  | .isConnected => false
  | .init => false
  | .setGain => false
  | .setItime => false
  | .setTimeout => false
  | .waitDataReady => false

/-- The position fits the word in `CMD`: one of the command's own, or the first statement of an illegal word. -/
def positionFits (s : State) (c : Ctx) : Prop :=
  match decode s.cmd with
  | .ok i => c.seg ∈ segments i
  | .error _ => c.seg = .start

/-- A reading that has begun has both valid flags clear (10_state.md R30, R31). -/
def readingUnvalidated (s : State) (c : Ctx) : Prop :=
  match decode s.cmd with
  | .ok i => isReading i = true → c.seg ≠ .start → s.status.chValid = false ∧ s.status.sortedValid = false
  | .error _ => True

/-- The codes that `E` of the context can hold (10_state.md R43, 41_bank_identity.md R153). -/
def identityCodes : List (BitVec 4) := [0, 1, 2, 7]

/-- `CTX` is as `STATUS.BUSY` says, and holds a position and a code that exist (10_state.md R47, R21, 60_exceptions.md R220). -/
def ContextSound (s : State) : Prop :=
  match s.ctx with
  | none => s.status.busy = false
  | some c => s.status.busy = true ∧ positionFits s c ∧ readingUnvalidated s c ∧ c.e ∈ identityCodes

/-- The relations of 10_state.md R26, R25 and 60_exceptions.md R220 between the fields of `STATUS`. -/
def StatusSound (t : Status) : Prop :=
  (t.busy = true → t.done = false ∧ t.ok = false ∧ t.err = 0) ∧ (t.done = true → t.ok = true → t.err = 0)
    ∧ t.bank ≠ 0b10 ∧ t.err.toNat ≤ 7

/-- `SORTED_VALID = 1` implies `CH_VALID = 1` and that `SORTED` is the sorted view of `CH` (10_state.md R31). -/
def ViewSound (s : State) : Prop :=
  s.status.sortedValid = true → s.status.chValid = true ∧ s.sorted = sortedView s.ch

/-- The registers of the reference target are in canonical form and inside their views (20_memory.md R76). -/
def Target.Sound (t : Target) : Prop :=
  t.regs.wf = true ∧ t.regs1.wf = true ∧ t.regs.below 256 = true ∧ t.regs1.below 128 = true

/-- The invariant of the model. -/
def State.Inv (s : State) : Prop := ContextSound s ∧ StatusSound s.status ∧ ViewSound s ∧ s.target.Sound

/-! Illegal words, by the words of the spec. -/

/-- The word is illegal (30_encoding.md R103): its opcode, the low 8 bits, selects no command, or a reserved bit is 1. -/
def IllegalWord (w : Word) : Prop :=
  let op := w.toNat % 256
  op = 0 ∨ 0x0C ≤ op
    ∨ ((op = 1 ∨ op = 2) ∧ (w.getLsbD 31 = true ∨ w.getLsbD 30 = true ∨ w.getLsbD 15 = true))
    ∨ (3 ≤ op ∧ op ≤ 0x0B ∧ w.toNat / 256 ≠ 0)

/-! How a segment ends: the command completes, or goes on at another position. -/

/-- `complete(ok, code)` as it shows in the next state (60_exceptions.md R223). -/
def Completes (ok : Bool) (code : ErrCode) (s t : State) : Prop :=
  t.status.busy = false ∧ t.status.done = true ∧ t.status.ok = ok ∧ t.status.err = code.code ∧ t.ctx = none ∧ t.cmd = s.cmd

/-- The command goes on at `seg`, and `STATUS` is as it was. -/
def GoesOn (seg : Seg) (s t : State) : Prop := t.status = s.status ∧ ∃ c, t.ctx = some c ∧ c.seg = seg

/-- The next state has the target and the counters that the transaction left. -/
def AfterTransaction (s' t : State) : Prop := t.target = s'.target ∧ t.result = s'.result

/-- The segment makes no transaction. -/
def NoTransaction (s t : State) : Prop := t.target = s.target ∧ t.result = s.result

/-- The segment is `V <- Rd(r, 1)[0]`, the first half of a read-modify-write (40_bus_adapter.md R134): on to `seg` with the
byte in `V`, or failed with the transaction's code and no other effect on `STATUS.BANK`. -/
def ReadsByteThen (i : Instr) (r : BitVec 8) (seg : Seg) (s : State) : Prop :=
  ∀ code bytes s', busRead s.params.devAddr r 1 s = some ((code, bytes), s') →
    ∃ t, exec i s = .next t ∧ AfterTransaction s' t
      ∧ (code = .none → GoesOn seg s t ∧ ∃ c, t.ctx = some c ∧ bytes = [c.v])
      ∧ (code ≠ .none → Completes false code s t ∧ t.status.bank = s.status.bank)

/-- The segment is `Wr(r, [v])` and then `after`, or failed with `NACK` (40_bus_adapter.md R133). -/
def WritesByteThen (i : Instr) (r : BitVec 8) (v : Byte) (s : State) (after : State → Prop) : Prop :=
  ∀ o s', busWrite s.params.devAddr r [v] s = some (o, s') →
    ∃ t, exec i s = .next t ∧ AfterTransaction s' t
      ∧ (o = .ack → after t ∧ t.status.bank = s.status.bank)
      ∧ (o ≠ .ack → Completes false .nack s t ∧ t.status.bank = s.status.bank)

/-- The segment is transaction 2 of `SelectBank(b)` with `V = v` (41_bank_identity.md R150): the bank bit of the byte is `b`
and its other bits are `V`'s; the mirror becomes `b`, or unknown where the write fails. -/
def SelectsBankThen (i : Instr) (b : BitVec 1) (v : Byte) (s : State) (after : State → Prop) : Prop :=
  ∀ o s', busWrite s.params.devAddr s.params.cfg0Reg
      [(v &&& ~~~(1#8 <<< s.params.bankBit.val)) ||| (b.zeroExtend 8 <<< s.params.bankBit.val)] s = some (o, s') →
    ∃ t, exec i s = .next t ∧ AfterTransaction s' t
      ∧ (o = .ack → after t ∧ t.status.bank = b.zeroExtend 2)
      ∧ (o ≠ .ack → Completes false .nack s t ∧ t.status.bank = 0b11)

/-- The command goes on at `seg` with no field of `STATUS` but `BANK` changed. -/
def GoesOnMirrored (seg : Seg) (s t : State) : Prop :=
  t.status = s.status.setBank t.status.bank ∧ ∃ c, t.ctx = some c ∧ c.seg = seg

/-- The segment is `T0 <- Now()`: on to `seg` with the clock's value latched (42_configuration.md R165). -/
def LatchesTimeThen (i : Instr) (seg : Seg) (s : State) : Prop :=
  ∃ t, exec i s = .next t ∧ NoTransaction s t ∧ GoesOn seg s t ∧ ∃ c, t.ctx = some c ∧ c.t0 = s.nowMs

/-- The segment is the time check of `WaitReady(TIMEOUT)` (43_acquisition.md R185): failed with `TIMEOUT` once the elapsed
time modulo 2^32 has reached it, on to the poll before that. -/
def ChecksTimeout (i : Instr) (t0 : Word) (s : State) : Prop :=
  ∃ t, exec i s = .next t ∧ NoTransaction s t
    ∧ (s.timeout.toNat ≤ (s.nowMs - t0).toNat → Completes false .timeout s t ∧ t.status.bank = s.status.bank)
    ∧ ((s.nowMs - t0).toNat < s.timeout.toNat → GoesOn .poll s t ∧ ∃ c, t.ctx = some c ∧ c.t0 = t0)

/-- The segment is the poll of `WaitReady` (43_acquisition.md R185): `after` as soon as the ready bit is set, back to the time
check with the same `T0` while it is not, failed with the transaction's code. -/
def PollsReady (i : Instr) (t0 : Word) (s : State) (after : State → Prop) : Prop :=
  ∀ code bytes s', busRead s.params.devAddr s.params.statusReg 1 s = some ((code, bytes), s') →
    ∃ t, exec i s = .next t ∧ AfterTransaction s' t ∧ t.status.bank = s.status.bank
      ∧ (code = .none → ∃ v, bytes = [v]
          ∧ (v.getLsbD s.params.avalidBit.val = true → after t)
          ∧ (v.getLsbD s.params.avalidBit.val = false → GoesOn .waitCheck s t ∧ ∃ c, t.ctx = some c ∧ c.t0 = t0))
      ∧ (code ≠ .none → Completes false code s t)

/-- The command's first segment makes a transaction: its checks pass (30_encoding.md R106) and its first primitive call is no
`Now()`. -/
def startsWithTransaction (i : Instr) (s : State) : Prop :=
  match i with
  | .write _ r n => 1 ≤ n.toNat ∧ n.toNat ≤ 32 ∧ r.toNat + n.toNat ≤ 256
  | .read _ r n => 1 ≤ n.toNat ∧ n.toNat ≤ 32 ∧ r.toNat + n.toNat ≤ 256
  | .setBank => True
  | .isConnected => True
  | .init => True
  | .setGain => (s.arg.extractLsb' 0 5).toNat ≤ 12 ∧ s.status.bank = 0b00
  | .setItime => s.status.bank = 0b00
  | .setTimeout => False
  | .waitDataReady => False
  | .readAll => True
  | .getSorted => True

/-- The command stands at a transaction: the segment at its position makes one. -/
def atTransaction (i : Instr) (c : Ctx) (s : State) : Prop :=
  c.seg ∉ [Seg.delayStart, .delayLoop, .waitStart, .waitCheck] ∧ (c.seg = .start → startsWithTransaction i s)

/-! Runs. -/

/-- `n` steps one after the other, stopping at the first fault or refusal. -/
def runSteps : Nat → State → Out
  | 0, s => .next s
  | n + 1, s =>
    match step s with
    | .next t => runSteps n t
    | .fault r => .fault r
    | .refused r => .refused r

/-! Frames. -/

/-- The two states agree on what only `HOST`, `CLOCK`, the agenda and the parameters own: no segment of a command changes it
(00_scope.md R6, 10_state.md R24). -/
def sameOutside (s t : State) : Prop :=
  t.cmd = s.cmd ∧ t.arg = s.arg ∧ t.nowMs = s.nowMs ∧ t.host = s.host ∧ t.agenda = s.agenda
    ∧ t.rounds = s.rounds ∧ t.spent = s.spent ∧ t.params = s.params ∧ t.status.werr = s.status.werr

/-- The two states agree on every data register of the window. -/
def sameData (s t : State) : Prop :=
  t.arg = s.arg ∧ t.timeout = s.timeout ∧ t.buf = s.buf ∧ t.ch = s.ch ∧ t.sorted = s.sorted
    ∧ t.result.idValue = s.result.idValue

/-- The two states agree on both valid flags. -/
def sameValid (s t : State) : Prop :=
  t.status.chValid = s.status.chValid ∧ t.status.sortedValid = s.status.sortedValid

/-- Register `a` of the reference target reads the same in both views, whether or not it was ever stored: an unlisted register
reads as a free value of the count of power-ups (log 9). -/
def Target.SameAt (a : Nat) (t t' : Target) : Prop :=
  t'.powerUps = t.powerUps ∧ t'.regs.read a = t.regs.read a ∧ t'.regs1.read a = t.regs1.read a

/-- No register of the reference target outside `[r, r + n)` reads differently, in either view. -/
def sameRegistersOutside (r n : Nat) (s t : State) : Prop :=
  ∀ a, (a < r ∨ r + n ≤ a) → s.target.SameAt a t.target

/-- No register of the reference target reads differently, and its pointer is as it was. -/
def sameDevice (s t : State) : Prop := (∀ a, s.target.SameAt a t.target) ∧ t.target.ptr = s.target.ptr

/-- Register `a` is none that a failed transaction would leave changed: not among the stores of the draw that answers the next
transaction (40_bus_adapter.md R130). -/
def notLeftOver (a : Nat) (s : State) : Prop :=
  ∀ d, s.target.nextAnswer.1 = some d → ∀ x ∈ d.left.stores, x.1.toNat ≠ a

/-- One register, if the command is at position `g`; none elsewhere. -/
def oneAt (g : Seg) (r : BitVec 8) (c : Ctx) : Nat × Nat := if c.seg = g then (r.toNat, 1) else (0, 0)

/-- The first register and the number of registers of the reference target that a segment stores to, if its write is
acknowledged: none for a `WRITE` to another address or one that fails its check. -/
def storedSpan (i : Instr) (c : Ctx) (s : State) : Nat × Nat :=
  match i with
  | .write a r n =>
    if a = s.params.devAddr ∧ 1 ≤ n.toNat ∧ n.toNat ≤ 32 ∧ r.toNat + n.toNat ≤ 256 then (r.toNat, n.toNat) else (0, 0)
  | .read _ _ _ => (0, 0)
  | .setBank => oneAt .bankWrite s.params.cfg0Reg c
  | .isConnected =>
    match c.seg with
    | .bankWrite => (s.params.cfg0Reg.toNat, 1)
    | .backWrite => (s.params.cfg0Reg.toNat, 1)
    | _ => (0, 0)
  | .init =>
    match c.seg with
    | .bankWrite => (s.params.cfg0Reg.toNat, 1)
    | .ponWrite => (s.params.enableReg.toNat, 1)
    | .smuxWrite => (s.params.smuxReg.toNat, 1)
    | .gainWrite => (s.params.gainReg.toNat, 1)
    | .spenWrite => (s.params.enableReg.toNat, 1)
    | _ => (0, 0)
  | .setGain => oneAt .gainWrite s.params.gainReg c
  | .setItime =>
    match c.seg with
    | .start => (s.params.atimeReg.toNat, 1)
    | .astepLow => (s.params.astepReg.toNat, 1)
    | .astepHigh => ((s.params.astepReg + 1).toNat, 1)
    | _ => (0, 0)
  | .setTimeout => (0, 0)
  | .waitDataReady => (0, 0)
  | .readAll => oneAt .bankWrite s.params.cfg0Reg c
  | .getSorted => oneAt .bankWrite s.params.cfg0Reg c

/-- The codes a command's own segments can complete with (60_exceptions.md R221, the columns but `ILLEGAL`, and `NONE`). -/
def possibleCodes (i : Instr) : List ErrCode :=
  match i with
  | .write _ _ _ => [.none, .nack, .badarg]
  | .read _ _ _ => [.none, .nack, .short, .badarg]
  | .setBank => [.none, .nack, .short]
  | .isConnected => [.none, .nack, .short, .idMismatch]
  | .init => [.none, .nack, .short]
  | .setGain => [.none, .nack, .short, .badarg, .bank]
  | .setItime => [.none, .nack, .bank]
  | .setTimeout => [.none]
  | .waitDataReady => [.none, .nack, .short, .timeout]
  | .readAll => [.none, .nack, .short, .timeout]
  | .getSorted => [.none, .nack, .short, .timeout]

end Sys2Proof.Machine
end

