-- ==== Sys2Proof/Certificates/Slice0/Obligations.lean ====
section
/-! DEFINITION. The statements for the provers, one `def Obligations.<Name> : Prop` each, in the order of OBLIGATIONS.json. -/

open Sys2Proof Sys2Proof.Machine

/-! Encoding. -/

/-- Every command, with every operand the word admits, decodes from its own word (30_encoding.md R100, R102). -/
def Obligations.DecodeOfEncode : Prop := ∀ i : Instr, decode (encode i) = .ok i

/-- No two words are the same command: a legal word is the word of the command it decodes to (30_encoding.md R100, R103). -/
def Obligations.EncodeOfDecode : Prop := ∀ (w : Word) (i : Instr), decode w = .ok i → encode i = w

/-- The decoder refuses exactly the words that 30_encoding.md R103 calls illegal, and such a word makes no transaction and
completes at once with `ILLEGAL`. -/
def Obligations.IllegalWordsCompleteWithIllegal : Prop :=
  (∀ w : Word, (∃ e, decode w = .error e) ↔ IllegalWord w)
    ∧ ∀ s : State, s.status.busy = true → IllegalWord s.cmd →
        ∃ t, ctrlTurn s = .next t ∧ NoTransaction s t ∧ Completes false .illegal s t ∧ sameOutside s t ∧ sameData s t
          ∧ sameValid s t ∧ t.status.bank = s.status.bank

/-- The words of 30_encoding.md R111 and one word for every opcode of the opcode map (R102) decode to the commands they stand
for; the words just outside the map, and one with a reserved bit, are refused (R103). -/
def Obligations.SampleWordsDecode : Prop :=
  decode 0x01803901 = .ok (.write 0x39 0x80 1) ∧ decode 0x01903902 = .ok (.read 0x39 0x90 1)
    ∧ decode 0x24953902 = .ok (.read 0x39 0x95 36) ∧ decode 0x04953902 = .ok (.read 0x39 0x95 4)
    ∧ decode 0x02FF3901 = .ok (.write 0x39 0xFF 2) ∧ decode 0x00000003 = .ok .setBank
    ∧ decode 0x00000004 = .ok .isConnected ∧ decode 0x00000005 = .ok .init ∧ decode 0x00000006 = .ok .setGain
    ∧ decode 0x00000007 = .ok .setItime ∧ decode 0x00000008 = .ok .setTimeout ∧ decode 0x00000009 = .ok .waitDataReady
    ∧ decode 0x0000000A = .ok .readAll ∧ decode 0x0000000B = .ok .getSorted
    ∧ decode 0x00000000 = .error .illegalOpcode ∧ decode 0x0000000C = .error .illegalOpcode
    ∧ decode 0x00000104 = .error .reservedBit

/-! Steps. -/

/-- When `CTRL` moves next and the word in `CMD` decodes to `i`, the step is one segment of `i`; the turn leaves the agenda. -/
def Obligations.StepRunsDecodedCommand : Prop :=
  ∀ (s : State) (rest : List Event) (i : Instr), s.agenda = .ctrl :: rest → s.status.busy = true →
    decode s.cmd = .ok i → step s = exec i (s.setAgenda rest)

/-- A word placed for the next step (how it is placed is the model's log 5) runs in it: the command starts at its first
statement, as at issue. -/
def Obligations.FetchWordRunsNext : Prop :=
  ∀ (s : State) (nbits w : Nat) (i : Instr), decodeTableWord nbits w = some i →
    step (s.withFetchWord nbits w) = exec i (issue (tableWord nbits w) s)

/-- A turn of `CLOCK` adds one to `NOW_MS` modulo 2^32 and changes nothing else but the agenda (10_state.md R46). -/
def Obligations.ClockTurnCountsOne : Prop :=
  ∀ (s : State) (rest : List Event), s.agenda = .clock :: rest →
    ∃ t, step s = .next t ∧ t.nowMs.toNat = (s.nowMs.toNat + 1) % 2 ^ 32 ∧ t = { s with agenda := rest, nowMs := t.nowMs }

/-- The model's choice (log 4): with an empty agenda the free value `Config.freeRound` says who moves. A round `(a, b)` is
`a + 1` turns of `CTRL` and then `b + 1` turns of `CLOCK`, and its last turn begins the next round. -/
def Obligations.OpenTurnIsClockOrController : Prop :=
  ∀ s : State, s.agenda = [] →
    let a := (Config.freeRound s.rounds).1
    let b := (Config.freeRound s.rounds).2
    step s = if s.spent ≤ a then ctrlTurn { s with spent := s.spent + 1 }
      else .next (clockTurn (if s.spent ≤ a + b then { s with spent := s.spent + 1 }
        else { s with rounds := s.rounds + 1, spent := 0 }))

/-- While no command is in progress `CTRL` has no step: its turn changes nothing but the agenda (30_encoding.md R107). -/
def Obligations.IdleControllerHasNoStep : Prop :=
  ∀ (s : State) (rest : List Event), s.agenda = .ctrl :: rest → s.status.busy = false → step s = .next (s.setAgenda rest)

/-! The host. -/

/-- A host write to `CMD` while idle issues the word, legal or not: exactly the updates of 30_encoding.md R101. -/
def Obligations.IdleWriteToCmdIssues : Prop :=
  ∀ (s : State) (rest : List Event) (ops : List HostOp) (w : Word), s.agenda = .host :: rest →
    s.host.prog = .store .word 0x00 w :: ops → s.status.busy = false →
    ∃ t, step s = .next t ∧ t.cmd = w ∧ t.status.busy = true ∧ t.status.done = false ∧ t.status.ok = false
      ∧ t.status.err = ErrCode.none.code ∧ t.status.werr = false ∧ t.result.rcount = 0 ∧ t.result.txcount = 0
      ∧ (∃ c, t.ctx = some c ∧ c.seg = .start) ∧ sameData s t ∧ sameValid s t ∧ t.status.bank = s.status.bank
      ∧ t.nowMs = s.nowMs ∧ t.target = s.target ∧ t.params = s.params ∧ t.host.prog = ops

/-- While busy, a host write to `CMD`, `ARG` or a `BUFW` register changes no state but `WERR` (10_state.md R41), beyond the
host's own program and turn. -/
def Obligations.BusyHostWriteOnlySetsWerr : Prop :=
  ∀ (s : State) (rest : List Event) (ops : List HostOp) (r : Csr) (v : Word), s.agenda = .host :: rest →
    s.host.prog = .store .word r.offset v :: ops → s.status.busy = true → (r = .cmd ∨ r = .arg ∨ ∃ j, r = .bufw j) →
    step s = .next { s with agenda := rest, host := { s.host with prog := ops }, status := { s.status with werr := true } }

/-- Reserved offsets read as zero, and a host write to a reserved offset or a read-only register has no effect and does not set
`WERR`, whatever `BUSY` is (10_state.md R39). -/
def Obligations.ReservedAndReadOnlyOffsets : Prop :=
  ∀ (s : State) (off : BitVec 8), off.toNat % 4 = 0 →
    let reserved := (0x18 ≤ off.toNat ∧ off.toNat ≤ 0x1F) ∨ 0x7C ≤ off.toNat
    let readOnly := (0x08 ≤ off.toNat ∧ off.toNat ≤ 0x14) ∨ (0x40 ≤ off.toNat ∧ off.toNat ≤ 0x78)
    (reserved → csrRead off s = 0)
      ∧ ∀ (v : Word), reserved ∨ readOnly →
          hostAccess (.store .word off v) s = .next { s with host := { s.host with prog := s.host.prog.tail } }

/-- A host read returns the register's value at the read, or 0 at a reserved offset, and has no side effect on any register,
busy or not (10_state.md R42; the reserved offsets are R39's). -/
def Obligations.HostReadHasNoSideEffect : Prop :=
  ∀ (s : State) (rest : List Event) (ops : List HostOp), s.agenda = .host :: rest →
    (∀ r : Csr, s.host.prog = .load .word r.offset :: ops →
      step s = .next { s with agenda := rest, host := { prog := ops, readData := csrValue r s } })
    ∧ ∀ off : BitVec 8, off.toNat % 4 = 0 → (0x18 ≤ off.toNat ∧ off.toNat ≤ 0x1F) ∨ 0x7C ≤ off.toNat →
        s.host.prog = .load .word off :: ops →
        step s = .next { s with agenda := rest, host := { prog := ops, readData := 0 } }

/-- The host's view of every register, field by field, and where in the window each one stands: the offsets of 10_state.md R22,
the readback of `CMD`, `ARG` and `BUFW j` (R23, R24, R36), and `STATUS`, `TIMEOUT`, `TIME`, `RESULT`, `CHW j` and `SRW j` (R25,
R33, R34, R35, R37, R38). -/
def Obligations.HostViewOfReadOnlyRegisters : Prop :=
  ∀ s : State,
    (let w := csrValue .status s
     w.getLsbD 0 = s.status.busy ∧ w.getLsbD 1 = s.status.done ∧ w.getLsbD 2 = s.status.ok ∧ w.getLsbD 3 = s.status.chValid
      ∧ w.getLsbD 4 = s.status.sortedValid ∧ w.getLsbD 5 = s.status.werr ∧ w.extractLsb' 6 2 = s.status.bank
      ∧ w.extractLsb' 8 4 = s.status.err ∧ w.extractLsb' 12 20 = 0#20)
    ∧ (let w := csrValue .result s
       w.extractLsb' 0 8 = s.result.idValue ∧ w.extractLsb' 8 8 = s.result.rcount ∧ w.extractLsb' 16 16 = s.result.txcount)
    ∧ csrValue .cmd s = s.cmd ∧ csrValue .arg s = s.arg ∧ csrValue .timeout s = s.timeout ∧ csrValue .time s = s.nowMs
    ∧ (∀ (j : Fin 8) (k : Fin 4), (csrValue (.bufw j) s).extractLsb' (8 * k.val) 8 = s.buf[4 * j.val + k.val])
    ∧ (∀ (j : Fin 9), (csrValue (.chw j) s).extractLsb' 0 16 = s.ch[2 * j.val]
        ∧ (csrValue (.chw j) s).extractLsb' 16 16 = s.ch[2 * j.val + 1])
    ∧ (∀ (j : Fin 6), (csrValue (.srw j) s).extractLsb' 0 16 = s.sorted[2 * j.val]
        ∧ (csrValue (.srw j) s).extractLsb' 16 16 = s.sorted[2 * j.val + 1])
    ∧ (Csr.cmd.offset.toNat = 0x00 ∧ Csr.arg.offset.toNat = 0x04 ∧ Csr.status.offset.toNat = 0x08
      ∧ Csr.timeout.offset.toNat = 0x0C ∧ Csr.time.offset.toNat = 0x10 ∧ Csr.result.offset.toNat = 0x14
      ∧ (∀ j : Fin 8, (Csr.bufw j).offset.toNat = 0x20 + 4 * j.val)
      ∧ (∀ j : Fin 9, (Csr.chw j).offset.toNat = 0x40 + 4 * j.val)
      ∧ ∀ j : Fin 6, (Csr.srw j).offset.toNat = 0x64 + 4 * j.val)
    ∧ ∀ r : Csr, csrRead r.offset s = csrValue r s

/-- A host write of `BUFW j` while idle puts byte `k` of the word in `BUF[4j+k]` and changes no other byte, and the register
reads back as written (10_state.md R36, 20_memory.md R62). -/
def Obligations.BufferWordsAreLittleEndian : Prop :=
  ∀ (s : State) (j : Fin 8) (v : Word), s.status.busy = false →
    ∃ t, hostAccess (.store .word (Csr.bufw j).offset v) s = .next t
      ∧ (∀ (k : Fin 4), t.buf[4 * j.val + k.val] = v.extractLsb' (8 * k.val) 8)
      ∧ (∀ (n : Fin 32), n.val / 4 ≠ j.val → t.buf[n] = s.buf[n])
      ∧ csrValue (.bufw j) t = v ∧ t.status = s.status ∧ t.arg = s.arg ∧ t.cmd = s.cmd ∧ t.ctx = s.ctx

/-- A host access is admitted only if it is 32 bits wide and its offset is a multiple of 4; any other is refused
(20_memory.md R65). -/
def Obligations.HostAccessAdmission : Prop :=
  ∀ (s : State) (w : Width) (off : BitVec 8) (v : Word) (op : HostOp), op = .load w off ∨ op = .store w off v →
    (w = .word ∧ off.toNat % 4 = 0 → ∃ t, hostAccess op s = .next t)
      ∧ (w ≠ .word → hostAccess op s = .refused .narrowHostAccess)
      ∧ (w = .word → off.toNat % 4 ≠ 0 → hostAccess op s = .refused .misalignedHostAccess)

/-- Reset gives the controller the values of 10_state.md R48 at once, also during a command. It leaves the target as it is unless
the command stands at a transaction: while idle, in a delay or at a time check, for a command whose checks fail, for `SET_TIMEOUT`
and for an illegal word; and a cut raw command to another address leaves the device as it is (70_reset_and_hazards.md R260, R262).
That it leaves `NOW_MS` too is the model's choice, by 60_exceptions.md R231 (log 3), and so is where a transaction is in progress
and what one that is cut left in the target (log 11). -/
def Obligations.HostResetValues : Prop :=
  ∀ (s : State) (cut : Leftover),
    ∃ t, hostAccess (.reset cut) s = .next t ∧ t.cmd = 0 ∧ t.arg = 0 ∧ csrValue .status t = 0x000000C0 ∧ t.timeout = 0
      ∧ csrValue .result t = 0 ∧ (∀ k : Fin 32, t.buf[k] = 0) ∧ (∀ k : Fin 18, t.ch[k] = 0)
      ∧ (∀ k : Fin 12, t.sorted[k] = 0) ∧ t.ctx = none ∧ t.nowMs = s.nowMs ∧ t.params = s.params
      ∧ t.target.kind = s.target.kind ∧ (s.status.busy = false ∨ s.ctx = none → t.target = s.target)
      ∧ (∀ c, s.ctx = some c → (∀ i, decode s.cmd = .ok i → ¬atTransaction i c s) → t.target = s.target)
      ∧ ∀ a r n, a ≠ s.params.devAddr → decode s.cmd = .ok (.write a r n) ∨ decode s.cmd = .ok (.read a r n) →
          sameDevice s t

/-- `WAIT_IDLE` loads `STATUS`, stays in the program while `BUSY` reads 1, and leaves it when `BUSY` reads 0
(44_pseudo.md R204). -/
def Obligations.WaitIdleLoopsWhileBusy : Prop :=
  ∀ (s : State) (ops : List HostOp), s.host.prog = .waitIdle :: ops →
    hostTurn s = .next { s with host :=
      { prog := if s.status.busy then s.host.prog else ops, readData := s.status.word } }

/-- The host accesses of every pseudo-instruction but `WAIT_IDLE`, which is one line. `WRITE_BYTE a, r, v` stores `v` to `BUFW0`
and the word of `WRITE a, r, 1` to `CMD`, and waits (44_pseudo.md R205); `READ_BYTE a, r` stores the word of `READ a, r, 1`, waits
and loads `BUFW0` (R206); `SET_BANK`, `SET_GAIN`, `SET_ITIME` and `SET_TIMEOUT` are a store of their argument to `ARG`, a store of
their word to `CMD` and a wait (R208); `SET_PRECISION p` is the six host accesses of the last two with the arguments of R207, whose
bytes are those of R209. -/
def Obligations.PrecisionExpansions : Prop :=
  Pseudo.waitIdle.expand = [.waitIdle]
    ∧ (∀ (a : BitVec 7) (r : BitVec 8) (v : Byte), ∃ x w : Word,
        (Pseudo.writeByte a r v).expand = [.store .word 0x20 x, .store .word 0x00 w, .waitIdle]
          ∧ x.extractLsb' 0 8 = v ∧ x.extractLsb' 8 24 = 0#24 ∧ decode w = .ok (.write a r 1))
    ∧ (∀ (a : BitVec 7) (r : BitVec 8), ∃ w : Word,
        (Pseudo.readByte a r).expand = [.store .word 0x00 w, .waitIdle, .load .word 0x20] ∧ decode w = .ok (.read a r 1))
    ∧ (∀ b : Word, (Pseudo.setBank b).expand = [.store .word 0x04 b, .store .word 0x00 0x00000003, .waitIdle])
    ∧ (∀ g : Word, (Pseudo.setGain g).expand = [.store .word 0x04 g, .store .word 0x00 0x00000006, .waitIdle])
    ∧ (∀ (atime : Byte) (astep : Half), ∃ w : Word,
    (Pseudo.setItime atime astep).expand = [.store .word 0x04 w, .store .word 0x00 0x00000007, .waitIdle]
      ∧ w.extractLsb' 0 8 = atime ∧ w.extractLsb' 8 16 = astep ∧ w.extractLsb' 24 8 = 0#8)
    ∧ (∀ ms : Word, (Pseudo.setTimeout ms).expand
        = [.store .word 0x04 ms, .store .word 0x00 0x00000008, .waitIdle])
    ∧ (Pseudo.setPrecision .low).expand
        = [.store .word 0x04 0x0003E700, .store .word 0x00 0x00000007, .waitIdle,
           .store .word 0x04 0x00000032, .store .word 0x00 0x00000008, .waitIdle]
    ∧ (Pseudo.setPrecision .medium).expand
        = [.store .word 0x04 0x004E2001, .store .word 0x00 0x00000007, .waitIdle,
           .store .word 0x04 0x000001F4, .store .word 0x00 0x00000008, .waitIdle]
    ∧ (Pseudo.setPrecision .high).expand
        = [.store .word 0x04 0x00FFFE00, .store .word 0x00 0x00000007, .waitIdle,
           .store .word 0x04 0x00000320, .store .word 0x00 0x00000008, .waitIdle]
    ∧ (∀ p, (Pseudo.setPrecision p).expand
        = (Pseudo.setItime p.atime p.astep).expand ++ (Pseudo.setTimeout p.timeout).expand)
    ∧ itimeArg Precision.low.atime Precision.low.astep = 0x0003E700
    ∧ itimeArg Precision.medium.atime Precision.medium.astep = 0x004E2001
    ∧ itimeArg Precision.high.atime Precision.high.astep = 0x00FFFE00
    ∧ Precision.low.timeout = 0x00000032 ∧ Precision.medium.timeout = 0x000001F4 ∧ Precision.high.timeout = 0x00000320
    ∧ lowByte Precision.low.astep = 0xE7 ∧ highByte Precision.low.astep = 0x03
    ∧ lowByte Precision.medium.astep = 0x20 ∧ highByte Precision.medium.astep = 0x4E
    ∧ lowByte Precision.high.astep = 0xFE ∧ highByte Precision.high.astep = 0xFF

/-! Completion and the bus primitives. -/

/-- `complete(ok, code)` writes `OK`, `ERR`, `DONE`, `BUSY` and clears the context; nothing else changes (60_exceptions.md
R223). `raise Fail(code)` is `complete(0, code)` (R222). -/
def Obligations.CompletionWritesOnlyItsFields : Prop :=
  (∀ (ok : Bool) (code : BitVec 4) (s : State),
    complete ok code s
      = { s with ctx := none, status := { s.status with ok := ok, err := code, done := true, busy := false } })
    ∧ ∀ (code : ErrCode) (s : State), fail code s = complete false code.code s

/-- `BusWrite` counts one transaction, saturating at 0xFFFF, changes nothing but that count and the target, and its outcome is
the target's: the NACKs and acknowledgements of 40_bus_adapter.md R130, no answer of R132, and where the reference target
answers by itself, `ACK` at `DEV_ADDR` and `NACK_ADDR` elsewhere (20_memory.md R77). The form of a draw is the model's choice
(log 7), and so is that a draw `short` answers a write with `ACK` (log 10). -/
def Obligations.BusWriteOutcomes : Prop :=
  ∀ (a : BitVec 7) (r : BitVec 8) (bytes : List Byte) (s : State),
    (∀ o s', busWrite a r bytes s = some (o, s') →
      s'.result.txcount.toNat = min (s.result.txcount.toNat + 1) 0xFFFF
        ∧ s' = { s with target := s'.target, result := { s.result with txcount := s'.result.txcount } })
    ∧ (s.target.nextAnswer.1 = some .silent → busWrite a r bytes s = none)
    ∧ (∀ left, s.target.nextAnswer.1 = some (.nackAddr left) → ∃ s', busWrite a r bytes s = some (.nackAddr, s'))
    ∧ (∀ k left, s.target.nextAnswer.1 = some (.nackByte k left) → k ≤ bytes.length →
        ∃ s', busWrite a r bytes s = some (.nackData k, s'))
    ∧ (∀ bs, s.target.nextAnswer.1 = some (.ok bs) → ∃ s', busWrite a r bytes s = some (.ack, s'))
    ∧ (∀ bs left, s.target.nextAnswer.1 = some (.short bs left) → ∃ s', busWrite a r bytes s = some (.ack, s'))
    ∧ (s.target.nextAnswer.1 = none →
        ∃ s', busWrite a r bytes s = some (if a = s.params.devAddr then .ack else .nackAddr, s'))

/-- `BusRead` counts one transaction, records the returned count, changes nothing else but the target, never returns more than
`n` bytes, and its code is that of 40_bus_adapter.md R131: `NACK` with no bytes after a failed pointer phase, `SHORT` where the
count differs, `NONE` otherwise; where the reference target answers by itself, `n` bytes with `NONE` at `DEV_ADDR` and `NACK`
elsewhere (20_memory.md R77). The form of a draw is the model's choice (log 7), and so is that a draw `nackByte k` refuses the
register byte of a read for every `k`, and that a draw `short` returns fewer bytes than asked for (log 10). -/
def Obligations.BusReadOutcomes : Prop :=
  ∀ (a : BitVec 7) (r : BitVec 8) (n : Nat) (s : State), n ≤ 32 →
    (∀ code bytes s', busRead a r n s = some ((code, bytes), s') →
      s'.result.txcount.toNat = min (s.result.txcount.toNat + 1) 0xFFFF ∧ s'.result.rcount.toNat = bytes.length
        ∧ bytes.length ≤ n ∧ (code = .none → bytes.length = n) ∧ (code = .short → bytes.length ≠ n)
        ∧ (code = .nack → bytes = []) ∧ (code = .none ∨ code = .nack ∨ code = .short)
        ∧ s' = { s with target := s'.target, result := { s'.result with idValue := s.result.idValue } })
    ∧ (s.target.nextAnswer.1 = some .silent → busRead a r n s = none)
    ∧ (∀ left, s.target.nextAnswer.1 = some (.nackAddr left) → ∃ s', busRead a r n s = some ((.nack, []), s'))
    ∧ (∀ k left, s.target.nextAnswer.1 = some (.nackByte k left) → ∃ s', busRead a r n s = some ((.nack, []), s'))
    ∧ (∀ bs left, s.target.nextAnswer.1 = some (.short bs left) → 1 ≤ n →
        ∃ s', busRead a r n s = some ((.short, bs.take (n - 1)), s'))
    ∧ (s.target.nextAnswer.1 = none →
        (a = s.params.devAddr → ∃ bytes s', busRead a r n s = some ((.none, bytes), s') ∧ bytes.length = n)
        ∧ (a ≠ s.params.devAddr → ∃ s', busRead a r n s = some ((.nack, []), s')))
    ∧ ∀ bs, s.target.nextAnswer.1 = some (.ok bs) →
        ∃ s', busRead a r n s = some ((if (bs.take n).length = n then .none else .short, bs.take n), s')

/-- A transaction the target never answers gives `CTRL` no step: in every command, at every position whose primitive call is a
transaction, the first one included where the command's checks pass, nothing changes (40_bus_adapter.md R132, 30_encoding.md
R107); and no segment changes the target or the counters while the next answer is silence. That `TXCOUNT` and the two valid
flags stay as they were during a hang is the model's deduction from R107 and R132 (log 8: DEDUCED, unsafe). -/
def Obligations.SilentTargetHoldsCommand : Prop :=
  ∀ (i : Instr) (s : State) (c : Ctx), s.ctx = some c → c.seg ∈ segments i → s.target.nextAnswer.1 = some .silent →
    (c.seg ∉ [Seg.start, .delayStart, .delayLoop, .waitStart, .waitCheck] → exec i s = .next s)
      ∧ (c.seg = .start → startsWithTransaction i s → exec i s = .next s)
      ∧ ∀ t, exec i s = .next t → NoTransaction s t

/-- A burst to registers at 0x80 or above of the reference target stores its bytes in ascending register order, byte `k` in
register `r + k`, and a burst read from `r` on returns them unchanged (20_memory.md R63, R77). -/
def Obligations.ReferenceTargetReadsBackWrites : Prop :=
  ∀ (s : State) (r : BitVec 8) (bytes : List Byte), s.target.kind = .reference → s.target.script = [] →
    0x80 ≤ r.toNat → r.toNat + bytes.length ≤ 256 →
    ∃ s', busWrite s.params.devAddr r bytes s = some (.ack, s')
      ∧ (∀ (k : Nat) (hk : k < bytes.length), s'.target.reg (r + BitVec.ofNat 8 k) = bytes[k])
      ∧ ∃ s'', busRead s.params.devAddr r bytes.length s' = some ((.none, bytes), s'')

/-- The sensor engine changes no register of the reference target but the status register and the data registers, and each of
these it can change to any byte (20_memory.md R77). -/
def Obligations.SensorEngineRegisters : Prop :=
  ∀ (p : Params) (t : Target) (r : BitVec 8) (v : Byte) (a : BitVec 8),
    (a ≠ p.statusReg → ¬(p.dataBase.toNat ≤ a.toNat ∧ a.toNat ≤ p.dataBase.toNat + 35) →
      (t.engineStore p r v).reg a = t.reg a)
    ∧ (t.engineStore p r v).regs1 = t.regs1
    ∧ (t.kind = .reference →
        r = p.statusReg ∨ (p.dataBase.toNat ≤ r.toNat ∧ r.toNat ≤ p.dataBase.toNat + 35) → (t.engineStore p r v).reg r = v)

/-! The raw commands. -/

/-- `WRITE` with a legal range makes one transaction with `BUF[0..n-1]` and completes with its outcome; no data register
changes (40_bus_adapter.md R136). -/
def Obligations.WriteCompletesWithBusOutcome : Prop :=
  ∀ (a : BitVec 7) (r : BitVec 8) (n : BitVec 6) (s s' : State) (c : Ctx) (o : WriteOutcome),
    s.ctx = some c → c.seg = .start → 1 ≤ n.toNat → n.toNat ≤ 32 → r.toNat + n.toNat ≤ 256 →
    busWrite a r (s.buf.toList.take n.toNat) s = some (o, s') →
    ∃ t, exec (.write a r n) s = .next t ∧ AfterTransaction s' t ∧ sameData s t ∧ sameValid s t ∧ sameOutside s t
      ∧ (o = .ack → Completes true .none s t) ∧ (o ≠ .ack → Completes false .nack s t)

/-- The raw-write snoop: a `WRITE` to `DEV_ADDR` that covers `CFG0_REG` sets the mirror to the written bank bit on `ACK` and to
unknown otherwise; no other raw command changes `STATUS.BANK` (40_bus_adapter.md R135). -/
def Obligations.RawWriteSnoop : Prop :=
  (∀ (a : BitVec 7) (r : BitVec 8) (n : BitVec 6) (s s' t : State) (c : Ctx) (o : WriteOutcome),
    s.ctx = some c → c.seg = .start → 1 ≤ n.toNat → n.toNat ≤ 32 → r.toNat + n.toNat ≤ 256 →
    busWrite a r (s.buf.toList.take n.toNat) s = some (o, s') → exec (.write a r n) s = .next t →
    let covers := a = s.params.devAddr ∧ r.toNat ≤ s.params.cfg0Reg.toNat
      ∧ s.params.cfg0Reg.toNat ≤ r.toNat + n.toNat - 1
    (covers → o ≠ .ack → t.status.bank = 0b11)
      ∧ (covers → o = .ack → t.status.bank = (BitVec.ofBool
          ((s.buf.toList.getD (s.params.cfg0Reg.toNat - r.toNat) 0).getLsbD s.params.bankBit.val)).zeroExtend 2)
      ∧ (¬covers → t.status.bank = s.status.bank))
  ∧ (∀ (a : BitVec 7) (r : BitVec 8) (n : BitVec 6) (s t : State),
      busWrite a r (s.buf.toList.take n.toNat) s = none ∨ ¬(1 ≤ n.toNat ∧ n.toNat ≤ 32 ∧ r.toNat + n.toNat ≤ 256) →
      exec (.write a r n) s = .next t → t.status.bank = s.status.bank)
  ∧ ∀ (a : BitVec 7) (r : BitVec 8) (n : BitVec 6) (s t : State), exec (.read a r n) s = .next t →
      t.status.bank = s.status.bank

/-- `READ` with a legal range makes one transaction, puts the `m` bytes received in `BUF[0..m-1]`, keeps the rest of `BUF`, and
completes with the transaction's code (40_bus_adapter.md R137). -/
def Obligations.ReadFillsBufferAndCompletes : Prop :=
  ∀ (a : BitVec 7) (r : BitVec 8) (n : BitVec 6) (s s' : State) (c : Ctx) (code : ErrCode) (bytes : List Byte),
    s.ctx = some c → c.seg = .start → 1 ≤ n.toNat → n.toNat ≤ 32 → r.toNat + n.toNat ≤ 256 →
    busRead a r n.toNat s = some ((code, bytes), s') →
    ∃ t, exec (.read a r n) s = .next t ∧ AfterTransaction s' t
      ∧ (∀ (k : Fin 32), t.buf[k] = bytes.getD k.val s.buf[k])
      ∧ Completes (decide (code = .none)) code s t ∧ sameValid s t ∧ sameOutside s t
      ∧ t.ch = s.ch ∧ t.sorted = s.sorted ∧ t.timeout = s.timeout ∧ t.status.bank = s.status.bank

/-- The argument checks of 30_encoding.md R105: `WRITE` and `READ` with `n = 0`, `n > 32` or `r + n - 1 > 0xFF`, and `SET_GAIN`
with `g > 12`, complete with `BADARG` and make no transaction; nothing else does. -/
def Obligations.ArgumentChecks : Prop :=
  ∀ (s : State) (c : Ctx), s.ctx = some c → c.seg = .start →
    (∀ (a : BitVec 7) (r : BitVec 8) (n : BitVec 6), n.toNat = 0 ∨ 32 < n.toNat ∨ 0xFF < r.toNat + n.toNat - 1 →
      ∃ t t', exec (.write a r n) s = .next t ∧ exec (.read a r n) s = .next t'
        ∧ Completes false .badarg s t ∧ Completes false .badarg s t' ∧ NoTransaction s t ∧ NoTransaction s t'
        ∧ sameData s t ∧ sameData s t')
    ∧ (12 < (s.arg.extractLsb' 0 5).toNat →
        ∃ t, exec .setGain s = .next t ∧ Completes false .badarg s t ∧ NoTransaction s t ∧ sameData s t)
    ∧ ∀ (i : Instr) (t : State), exec i s = .next t → s.status.err ≠ ErrCode.badarg.code →
        t.status.err = ErrCode.badarg.code →
        i.wellFormed = false ∨ (i = .setGain ∧ 12 < (s.arg.extractLsb' 0 5).toNat)

/-! Bank selection and identity. -/

/-- `SET_BANK` is `SelectBank(ARG[0])` and then success: the read-modify-write of the bank bit in `CFG0_REG` with the mirror
updates of 41_bank_identity.md R150, R151. -/
def Obligations.SetBankSelectsArgBit : Prop :=
  ∀ (s : State) (c : Ctx), s.ctx = some c →
    (c.seg = .start → ReadsByteThen .setBank s.params.cfg0Reg .bankWrite s)
      ∧ (c.seg = .bankWrite → SelectsBankThen .setBank (s.arg.extractLsb' 0 1) c.v s (Completes true .none s))

/-- The segments of `IS_CONNECTED` (41_bank_identity.md R153, R150): a failed switch to bank 1 skips the identity read, the switch
back is always attempted, `E` keeps the first code, and `OK` is 1 only if `E` is `NONE` at the end. Where the read of the switch
back fails, two things are the model's reading of R150 and of R153's pseudocode: the mirror stays as it was, 0b00 too, though R154
says 0b01 or 0b11 (log 20, DEDUCED), and the command completes with the count of the transactions made, 2 where transaction 1
failed too, though R153 gives the range 3 to 5 (log 19, DEDUCED). -/
def Obligations.IsConnectedKeepsFirstFailure : Prop :=
  ∀ (s : State) (c : Ctx), s.ctx = some c →
    (c.seg = .start → ∀ code bytes s', busRead s.params.devAddr s.params.cfg0Reg 1 s = some ((code, bytes), s') →
      ∃ t c', exec .isConnected s = .next t ∧ AfterTransaction s' t ∧ t.status = s.status ∧ t.ctx = some c'
        ∧ c'.e = code.code ∧ (code = .none → c'.seg = .bankWrite ∧ bytes = [c'.v])
        ∧ (code ≠ .none → c'.seg = .backRead))
    ∧ (c.seg = .bankWrite → ∀ o s', busWrite s.params.devAddr s.params.cfg0Reg
        [(c.v &&& ~~~(1#8 <<< s.params.bankBit.val)) ||| (1#8 <<< s.params.bankBit.val)] s = some (o, s') →
      ∃ t c', exec .isConnected s = .next t ∧ AfterTransaction s' t ∧ t.ctx = some c'
        ∧ (o = .ack → GoesOnMirrored .idRead s t ∧ t.status.bank = 0b01 ∧ c'.e = c.e)
        ∧ (o ≠ .ack → GoesOnMirrored .backRead s t ∧ t.status.bank = 0b11 ∧ c'.e = ErrCode.nack.code))
    ∧ (c.seg = .idRead → ∀ code bytes s', busRead s.params.devAddr s.params.idReg 1 s = some ((code, bytes), s') →
      ∃ t c', exec .isConnected s = .next t ∧ t.target = s'.target ∧ t.status = s.status ∧ t.ctx = some c'
        ∧ c'.seg = .backRead
        ∧ (code = .none → t.result = { s'.result with idValue := t.result.idValue } ∧ bytes = [t.result.idValue]
            ∧ c'.e = if t.result.idValue = s.params.expectedId then c.e else ErrCode.idMismatch.code)
        ∧ (code ≠ .none → t.result = s'.result ∧ c'.e = code.code))
    ∧ (c.seg = .backRead → ∀ code bytes s', busRead s.params.devAddr s.params.cfg0Reg 1 s = some ((code, bytes), s') →
      ∃ t, exec .isConnected s = .next t ∧ AfterTransaction s' t ∧ t.status.bank = s.status.bank
        ∧ (code = .none → GoesOn .backWrite s t ∧ ∃ c', t.ctx = some c' ∧ bytes = [c'.v] ∧ c'.e = c.e)
        ∧ (code ≠ .none → t.status.busy = false ∧ t.status.done = true ∧ t.status.ok = false ∧ t.ctx = none
            ∧ t.status.err = if c.e = 0 then code.code else c.e))
    ∧ (c.seg = .backWrite → ∀ o s', busWrite s.params.devAddr s.params.cfg0Reg
        [c.v &&& ~~~(1#8 <<< s.params.bankBit.val)] s = some (o, s') →
      ∃ t, exec .isConnected s = .next t ∧ AfterTransaction s' t ∧ t.status.busy = false ∧ t.status.done = true
        ∧ t.ctx = none
        ∧ (o = .ack → t.status.bank = 0b00 ∧ t.status.err = c.e ∧ t.status.ok = decide (c.e = 0))
        ∧ (o ≠ .ack → t.status.bank = 0b11 ∧ t.status.ok = false
            ∧ t.status.err = if c.e = 0 then ErrCode.nack.code else c.e))

/-- A whole `IS_CONNECTED` whose bank-select transactions all succeed leaves bank 0 selected, in the mirror and in the reference
target, whether the identity read succeeded, mismatched or failed, and reports the verdict of 41_bank_identity.md R153, R154. -/
def Obligations.IsConnectedAlwaysRestoresBankZero : Prop :=
  ∀ (s : State) (v0 v1 : Byte) (b1 b2 : List Byte) (id : Draw) (more : List (Option Draw)) (rest : List Event),
    s.status.busy = true → decode s.cmd = .ok .isConnected → s.ctx = some Ctx.fresh → s.result.txcount = 0 →
    s.agenda = List.replicate 5 .ctrl ++ rest → id ≠ .silent →
    s.target.script = some (.ok [v0]) :: some (.ok b1) :: some id :: some (.ok [v1]) :: some (.ok b2) :: more →
    ∃ t, runSteps 5 s = .next t ∧ t.status.busy = false ∧ t.status.done = true ∧ t.ctx = none ∧ t.agenda = rest
      ∧ t.status.bank = 0b00 ∧ t.result.txcount = 5 ∧ t.target.script = more
      ∧ (s.target.kind = .reference → 0x80 ≤ s.params.cfg0Reg.toNat → t.target.inBank1 s.params = false)
      ∧ (∀ x xs, id = .ok (x :: xs) → t.result.idValue = x ∧ t.status.ok = decide (x = s.params.expectedId)
          ∧ t.status.err = if x = s.params.expectedId then ErrCode.none.code else ErrCode.idMismatch.code)
      ∧ (id = .ok [] → t.status.ok = false ∧ t.status.err = ErrCode.short.code ∧ t.result.idValue = s.result.idValue)
      ∧ (∀ bs left, id = .short bs left →
          t.status.ok = false ∧ t.status.err = ErrCode.short.code ∧ t.result.idValue = s.result.idValue)
      ∧ ((∀ bs, id ≠ .ok bs) → (∀ bs left, id ≠ .short bs left) →
          t.status.ok = false ∧ t.status.err = ErrCode.nack.code ∧ t.result.idValue = s.result.idValue)

/-! Configuration. -/

/-- The twelve segments of `INIT` in their order, with the byte each write sends (42_configuration.md R166, R165): the delay loop
goes on once `STAB_DELAY_MS` milliseconds modulo 2^32 have passed since `T0`, and every failure ends the command. -/
def Obligations.InitRunsItsSequence : Prop :=
  ∀ (s : State) (c : Ctx), s.ctx = some c →
    let p := s.params
    (c.seg = .start → ReadsByteThen .init p.cfg0Reg .bankWrite s)
      ∧ (c.seg = .bankWrite → SelectsBankThen .init 0 c.v s (GoesOnMirrored .ponRead s))
      ∧ (c.seg = .ponRead → ReadsByteThen .init p.enableReg .ponWrite s)
      ∧ (c.seg = .ponWrite → WritesByteThen .init p.enableReg (c.v ||| (1#8 <<< p.ponBit.val)) s (GoesOn .delayStart s))
      ∧ (c.seg = .delayStart → LatchesTimeThen .init .delayLoop s)
      ∧ (c.seg = .delayLoop → ∃ t c', exec .init s = .next t ∧ NoTransaction s t ∧ t.status = s.status ∧ t.ctx = some c'
          ∧ c'.t0 = c.t0
          ∧ c'.seg = if p.stabDelayMs.toNat ≤ (s.nowMs - c.t0).toNat then .smuxRead else .delayLoop)
      ∧ (c.seg = .smuxRead → ReadsByteThen .init p.smuxReg .smuxWrite s)
      ∧ (c.seg = .smuxWrite → WritesByteThen .init p.smuxReg
          ((c.v &&& ~~~(0b11#8 <<< p.smuxLsb.val)) ||| (p.smux18ch.zeroExtend 8 <<< p.smuxLsb.val)) s (GoesOn .gainRead s))
      ∧ (c.seg = .gainRead → ReadsByteThen .init p.gainReg .gainWrite s)
      ∧ (c.seg = .gainWrite → WritesByteThen .init p.gainReg
          ((c.v &&& 0xE0#8) ||| BitVec.ofNat 8 p.defaultGain.val) s (GoesOn .spenRead s))
      ∧ (c.seg = .spenRead → ReadsByteThen .init p.enableReg .spenWrite s)
      ∧ (c.seg = .spenWrite → WritesByteThen .init p.enableReg (c.v ||| (1#8 <<< p.spenBit.val)) s
          (Completes true .none s))

/-- `SET_GAIN`: first the range check, then the bank check, each with no transaction; then the read-modify-write that keeps bits
[7:5] of `GAIN_REG` and sets bits [4:0] to the code (42_configuration.md R168, 30_encoding.md R106). -/
def Obligations.SetGainChecksThenWritesField : Prop :=
  ∀ (s : State) (c : Ctx), s.ctx = some c →
    let g := s.arg.extractLsb' 0 5
    (c.seg = .start → 12 < g.toNat → ∃ t, exec .setGain s = .next t ∧ Completes false .badarg s t ∧ NoTransaction s t)
      ∧ (c.seg = .start → g.toNat ≤ 12 → s.status.bank ≠ 0b00 →
          ∃ t, exec .setGain s = .next t ∧ Completes false .bank s t ∧ NoTransaction s t)
      ∧ (c.seg = .start → g.toNat ≤ 12 → s.status.bank = 0b00 → ReadsByteThen .setGain s.params.gainReg .gainWrite s)
      ∧ (c.seg = .gainWrite →
          WritesByteThen .setGain s.params.gainReg ((c.v &&& 0xE0#8) ||| g.zeroExtend 8) s (Completes true .none s))

/-- A whole `SET_GAIN` on the reference target leaves the low 5 bits of `GAIN_REG` equal to the code, its other bits and every
other register as before (42_configuration.md R169, 20_memory.md R77). -/
def Obligations.SetGainOnReferenceTarget : Prop :=
  ∀ (s : State) (v : Byte) (rest : List Event),
    s.status.busy = true → decode s.cmd = .ok .setGain → s.ctx = some Ctx.fresh → s.agenda = .ctrl :: .ctrl :: rest →
    s.target.kind = .reference → s.target.script = [] → s.params.wf = true → s.status.bank = 0b00 →
    (s.arg.extractLsb' 0 5).toNat ≤ 12 → s.target.regs.read s.params.gainReg.toNat = some v →
    ∃ t x, runSteps 2 s = .next t ∧ Completes true .none s t ∧ t.agenda = rest
      ∧ t.target.regs.read s.params.gainReg.toNat = some x
      ∧ x.extractLsb' 0 5 = s.arg.extractLsb' 0 5 ∧ x.extractLsb' 5 3 = v.extractLsb' 5 3
      ∧ sameRegistersOutside s.params.gainReg.toNat 1 s t

/-- `SET_ITIME`: the bank check, then one-byte writes of `ATIME`, the low byte of `ASTEP`, its high byte; a failed write ends the
command and the later ones are not made (42_configuration.md R170). -/
def Obligations.SetItimeWritesThreeBytes : Prop :=
  ∀ (s : State) (c : Ctx), s.ctx = some c →
    (c.seg = .start → s.status.bank ≠ 0b00 →
      ∃ t, exec .setItime s = .next t ∧ Completes false .bank s t ∧ NoTransaction s t)
      ∧ (c.seg = .start → s.status.bank = 0b00 →
          WritesByteThen .setItime s.params.atimeReg (s.arg.extractLsb' 0 8) s (GoesOn .astepLow s))
      ∧ (c.seg = .astepLow →
          WritesByteThen .setItime s.params.astepReg (s.arg.extractLsb' 8 8) s (GoesOn .astepHigh s))
      ∧ (c.seg = .astepHigh →
          WritesByteThen .setItime (s.params.astepReg + 1) (s.arg.extractLsb' 16 8) s (Completes true .none s))

/-- A whole `SET_ITIME` on the reference target writes exactly `ATIME_REG`, `ASTEP_REG` and `ASTEP_REG + 1`, with the bytes of
`ARG`, and no other register (42_configuration.md R170, R173). -/
def Obligations.SetItimeOnReferenceTarget : Prop :=
  ∀ (s : State) (rest : List Event),
    s.status.busy = true → decode s.cmd = .ok .setItime → s.ctx = some Ctx.fresh →
    s.agenda = .ctrl :: .ctrl :: .ctrl :: rest → s.target.kind = .reference → s.target.script = [] → s.params.wf = true →
    s.status.bank = 0b00 → s.result.txcount = 0 →
    ∃ t, runSteps 3 s = .next t ∧ Completes true .none s t ∧ t.agenda = rest ∧ t.result.txcount = 3
      ∧ t.result.rcount = s.result.rcount ∧ t.timeout = s.timeout
      ∧ t.target.reg s.params.atimeReg = s.arg.extractLsb' 0 8
      ∧ t.target.reg s.params.astepReg = s.arg.extractLsb' 8 8
      ∧ t.target.reg (s.params.astepReg + 1) = s.arg.extractLsb' 16 8
      ∧ (∀ a, a ≠ s.params.atimeReg.toNat → a ≠ s.params.astepReg.toNat → a ≠ s.params.astepReg.toNat + 1 →
          t.target.regs.read a = s.target.regs.read a)
      ∧ t.target.regs1 = s.target.regs1 ∧ t.target.powerUps = s.target.powerUps

/-- `SET_TIMEOUT` stores `ARG` in `TIMEOUT`, makes no transaction and succeeds (42_configuration.md R172). -/
def Obligations.SetTimeoutStoresArg : Prop :=
  ∀ (s : State) (c : Ctx), s.ctx = some c → c.seg = .start →
    ∃ t, exec .setTimeout s = .next t ∧ Completes true .none s t ∧ NoTransaction s t ∧ t.timeout = s.arg ∧ t.arg = s.arg
      ∧ t.buf = s.buf ∧ t.ch = s.ch ∧ t.sorted = s.sorted ∧ sameValid s t ∧ sameOutside s t
      ∧ t.status.bank = s.status.bank

/-! The wait and the channel reading. -/

/-- `WAIT_DATA_READY` is `WaitReady(TIMEOUT)` and then success (43_acquisition.md R185, R186): every poll starts inside the
window, and the first poll that returns the bit set succeeds. -/
def Obligations.WaitDataReadyPollsInsideWindow : Prop :=
  ∀ (s : State) (c : Ctx), s.ctx = some c →
    (c.seg = .start → LatchesTimeThen .waitDataReady .waitCheck s)
      ∧ (c.seg = .waitCheck → ChecksTimeout .waitDataReady c.t0 s)
      ∧ (c.seg = .poll → PollsReady .waitDataReady c.t0 s (Completes true .none s))

/-- The segments of `READ_ALL` and `GET_SORTED` up to the channels (43_acquisition.md R188): the valid flags are cleared with the
first transaction, bank 0 is selected whatever the mirror says, then the wait. -/
def Obligations.ReadingSelectsBankThenWaits : Prop :=
  ∀ (i : Instr) (s : State) (c : Ctx), i = .readAll ∨ i = .getSorted → s.ctx = some c →
    (c.seg = .start → ∀ code bytes s', busRead s.params.devAddr s.params.cfg0Reg 1 s = some ((code, bytes), s') →
      ∃ t, exec i s = .next t ∧ AfterTransaction s' t ∧ t.status.chValid = false ∧ t.status.sortedValid = false
        ∧ t.status.bank = s.status.bank
        ∧ (code = .none → t.status.busy = s.status.busy ∧ ∃ c', t.ctx = some c' ∧ c'.seg = .bankWrite ∧ bytes = [c'.v])
        ∧ (code ≠ .none → Completes false code s t))
    ∧ (c.seg = .bankWrite → SelectsBankThen i 0 c.v s (GoesOnMirrored .waitStart s))
    ∧ (c.seg = .waitStart → LatchesTimeThen i .waitCheck s)
    ∧ (c.seg = .waitCheck → ChecksTimeout i c.t0 s)
    ∧ (c.seg = .poll → PollsReady i c.t0 s
        (fun t => GoesOn .channel s t ∧ ∃ c', t.ctx = some c' ∧ c'.i = 0))

/-- The channel segment of `READ_ALL` and `GET_SORTED` (43_acquisition.md R188, R189, R190): two bytes from `DATA_BASE + 2*I`,
little-endian, become `CH[I]` and nothing else of `CH` changes; after channel 17 the command succeeds with `CH_VALID = 1`, and
`GET_SORTED` has written `SORTED`; a failed read ends the command with `CH`, `SORTED` and both flags as they were. -/
def Obligations.ChannelReadFillsOneChannel : Prop :=
  ∀ (i : Instr) (s s' : State) (c : Ctx) (code : ErrCode) (bytes : List Byte),
    i = .readAll ∨ i = .getSorted → s.ctx = some c → c.seg = .channel →
    busRead s.params.devAddr (s.params.dataBase + BitVec.ofNat 8 (2 * c.i.val)) 2 s = some ((code, bytes), s') →
    ∃ t, exec i s = .next t ∧ AfterTransaction s' t ∧ t.status.bank = s.status.bank
      ∧ (code ≠ .none → Completes false code s t ∧ t.ch = s.ch ∧ t.sorted = s.sorted ∧ sameValid s t)
      ∧ (code = .none → ∃ b0 b1, bytes = [b0, b1] ∧ t.ch[c.i.val] = b1 ++ b0
          ∧ (∀ (k : Fin 18), k ≠ c.i → t.ch[k] = s.ch[k])
          ∧ (c.i.val < 17 → GoesOn .channel s t ∧ t.sorted = s.sorted ∧ ∃ c', t.ctx = some c' ∧ c'.i.val = c.i.val + 1)
          ∧ (c.i.val = 17 → Completes true .none s t ∧ t.status.chValid = true
              ∧ (i = .readAll → t.sorted = s.sorted ∧ t.status.sortedValid = s.status.sortedValid)
              ∧ (i = .getSorted → t.sorted = sortedView t.ch ∧ t.status.sortedValid = true)))

/-- A whole `GET_SORTED` whose transactions all succeed and whose first poll finds the ready bit set: 23 segments, 21
transactions, the 18 channels little-endian in `CH`, and the 12 sorted values in `SORTED` (43_acquisition.md R188, R190,
R191). -/
def Obligations.GetSortedWholeCommand : Prop :=
  ∀ (s : State) (v0 st : Byte) (b1 : List Byte) (lo hi : Fin 18 → Byte) (more : List (Option Draw)) (rest : List Event),
    s.status.busy = true → decode s.cmd = .ok .getSorted → s.ctx = some Ctx.fresh → s.result.txcount = 0 →
    s.timeout ≠ 0 → st.getLsbD s.params.avalidBit.val = true → s.agenda = List.replicate 23 .ctrl ++ rest →
    s.target.script = some (.ok [v0]) :: some (.ok b1) :: some (.ok [st])
      :: (List.ofFn fun k : Fin 18 => some (.ok [lo k, hi k])) ++ more →
    ∃ t, runSteps 23 s = .next t ∧ Completes true .none s t ∧ t.agenda = rest ∧ t.target.script = more
      ∧ t.status.chValid = true ∧ t.status.sortedValid = true ∧ t.status.bank = 0b00
      ∧ t.result.txcount = 21 ∧ t.result.rcount = 2
      ∧ (∀ k : Fin 18, t.ch[k] = hi k ++ lo k)
      ∧ ∀ k : Fin 12, t.sorted[k] = hi sortPerm[k] ++ lo sortPerm[k]

/-- `GET_SORTED` is a pure permutation (43_acquisition.md R191): whenever it succeeds, for whatever reading, the twelve sorted
values are the entries of `CH` that the rule lists, and nothing else decides them; and the reading whose channel `i` holds `i`
yields exactly the list of the rule. -/
def Obligations.SortedViewIsPurePermutation : Prop :=
  ∀ s t : State, s.status.busy = true → exec .getSorted s = .next t → t.status.busy = false → t.status.ok = true →
    t.sorted.toList = [t.ch[12], t.ch[6], t.ch[0], t.ch[7], t.ch[8], t.ch[15], t.ch[1], t.ch[2], t.ch[9], t.ch[13], t.ch[14],
      t.ch[3]]
    ∧ ((∀ k : Fin 18, t.ch[k] = BitVec.ofNat 16 k.val) → t.sorted.toList = [12, 6, 0, 7, 8, 15, 1, 2, 9, 13, 14, 3])

/-! Frames. -/

/-- No segment of any command changes `CMD`, `ARG`, `NOW_MS`, `WERR`, the host, the agenda or the parameters (00_scope.md R6,
10_state.md R24, R32). -/
def Obligations.SegmentsKeepWhatOthersOwn : Prop :=
  ∀ (i : Instr) (s t : State), exec i s = .next t → sameOutside s t

/-- Which commands write which data register and flag (10_state.md R30, R31, R33, R35, R36, R37, R38): every other command leaves
it as it was, in every segment. -/
def Obligations.DataRegistersHaveOneWriter : Prop :=
  ∀ (i : Instr) (s t : State), exec i s = .next t →
    (i ≠ .setTimeout → t.timeout = s.timeout)
      ∧ ((∀ a r n, i ≠ .read a r n) → t.buf = s.buf)
      ∧ (i ≠ .readAll → i ≠ .getSorted → t.ch = s.ch ∧ sameValid s t)
      ∧ (i ≠ .getSorted → t.sorted = s.sorted)
      ∧ (i ≠ .isConnected → t.result.idValue = s.result.idValue)
      ∧ (i = .setTimeout → t.target = s.target ∧ t.result = s.result)

/-- The mirror is written only by `SelectBank` and the snoop of `WRITE` (10_state.md R27): the other commands keep it, and no
command makes it 0b10. -/
def Obligations.MirrorWriters : Prop :=
  ∀ (i : Instr) (s t : State), exec i s = .next t →
    (t.status.bank = s.status.bank ∨ t.status.bank = 0b00 ∨ t.status.bank = 0b01 ∨ t.status.bank = 0b11)
      ∧ ((∃ a r n, i = .read a r n) ∨ i = .setGain ∨ i = .setItime ∨ i = .setTimeout ∨ i = .waitDataReady →
          t.status.bank = s.status.bank)

/-- The registers of the reference target that a segment changes are those its write stores to, and none for a segment that
writes nothing, a `WRITE` to another address and a `WRITE` that fails its check: every other register, in both views and stored before or not, reads as before (20_memory.md R61, R77). Only a transaction that fails may
change more: the registers its draw lists, for what the target stored then is not known (40_bus_adapter.md R130; that it is a
list of stores in the draw is the model's choice, log 10). -/
def Obligations.SegmentsStoreOnlyTheirSpan : Prop :=
  ∀ (i : Instr) (s t : State) (c : Ctx) (a : Nat), s.ctx = some c → exec i s = .next t →
    a < (storedSpan i c s).1 ∨ (storedSpan i c s).1 + (storedSpan i c s).2 ≤ a → notLeftOver a s →
    s.target.SameAt a t.target
      ∧ ∀ b : BitVec 8, b.toNat = a → t.target.reg b = s.target.reg b ∧ t.target.reg1 b = s.target.reg1 b

/-! The whole machine. -/

/-- The codes each command's own segments can complete with are those of its row of 60_exceptions.md R221. -/
def Obligations.FailureCodesByCommand : Prop :=
  ∀ (i : Instr) (s t : State), s.Inv → s.status.busy = true → exec i s = .next t → t.status.busy = false →
    ∃ code ∈ possibleCodes i, t.status.err = code.code ∧ t.status.ok = decide (code = .none)

/-- At every position a command has, its segment answers a next state: the command goes on or completes (30_encoding.md R107).
Before a transaction that is never answered R107 gives no step; that the model then answers the same state, with the command
still at its position, is its choice (log 8). -/
def Obligations.EveryPositionAnswers : Prop :=
  ∀ (i : Instr) (s : State) (c : Ctx), s.ctx = some c → c.seg ∈ segments i → s.Inv →
    ∃ t, exec i s = .next t
      ∧ ((t.status.busy = true ∧ ∃ c', t.ctx = some c' ∧ c'.seg ∈ segments i)
        ∨ ∃ ok code, Completes ok code s t)

/-- The state after reset meets the invariant. -/
def Obligations.ResetMeetsInvariant : Prop := State.reset.Inv

/-- Every step keeps the invariant: the context is present exactly while `BUSY` is 1 and its position is one of the command in
`CMD`; the fields of `STATUS` stay related as in 10_state.md R26 and its mirror and code stay legal (R25, R27,
60_exceptions.md R220); `SORTED_VALID` stays true to `SORTED` and `CH` (R31); the target's registers keep their form. -/
def Obligations.StepKeepsInvariant : Prop :=
  ∀ s t : State, s.Inv → step s = .next t → t.Inv

/-- From a state that meets the invariant no step faults: the model stops only where a host access is refused (20_memory.md R65,
60_exceptions.md R239). The model's choices: the two faults that this rules out (log 6), and that R239's third outcome, stuck,
is a next state in which the other agents go on (log 4, log 8). -/
def Obligations.InvariantRulesOutFaults : Prop :=
  ∀ s : State, s.Inv → (∃ t, step s = .next t) ∨ step s = .refused .narrowHostAccess
    ∨ step s = .refused .misalignedHostAccess

/-- A command ends only by completion or by reset: there is no abort, cancel or pause (30_encoding.md R108). -/
def Obligations.CommandEndsByCompletionOrReset : Prop :=
  ∀ s t : State, s.Inv → s.status.busy = true → step s = .next t → t.status.busy = false →
    (∃ ok code, Completes ok code s t)
      ∨ ∃ rest cut ops, s.agenda = .host :: rest ∧ s.host.prog = .reset cut :: ops ∧ t.status = Status.reset

/-- `NOW_MS` is written by no agent but `CLOCK`, which adds one (60_exceptions.md R231): at a turn that the agenda gives it, or at
an open turn that falls to it, which is by the free value `Config.freeRound` the model's choice (log 4). No step changes the
parameters. -/
def Obligations.OnlyClockWritesTime : Prop :=
  ∀ s t : State, step s = .next t →
    t.params = s.params
      ∧ (t.nowMs = s.nowMs ∨ (t.nowMs = s.nowMs + 1 ∧ ((∃ rest, s.agenda = .clock :: rest)
        ∨ s.agenda = [] ∧ (Config.freeRound s.rounds).1 < s.spent)))

/-! Open values, fairness, and the write of `ARG`. -/

/-- A host write to `ARG` while idle stores the word and changes nothing else, beyond the host's own program and turn
(10_state.md R24). -/
def Obligations.IdleWriteToArgStores : Prop :=
  ∀ (s : State) (rest : List Event) (ops : List HostOp) (w : Word), s.agenda = .host :: rest →
    s.host.prog = .store .word 0x04 w :: ops → s.status.busy = false →
    step s = .next { s with agenda := rest, host := { s.host with prog := ops }, arg := w }

/-- `CLOCK` is fair (60_exceptions.md R236): a machine left alone, whatever it is doing, counts any number of milliseconds in
finitely many steps; and `CTRL` moves again after finitely many steps too, which the model adds (log 4). -/
def Obligations.OpenTurnsAreFair : Prop :=
  ∀ s : State, s.Inv → s.agenda = [] →
    (∀ k : Nat, ∃ n t, runSteps n s = .next t ∧ t.agenda = [] ∧ t.nowMs = s.nowMs + BitVec.ofNat 32 k)
      ∧ ∃ n t, runSteps n s = .next t ∧ t.agenda = [] ∧ step t = ctrlTurn { t with spent := t.spent + 1 }

/-- A failed transaction, or one that a reset cuts short, may leave the reference target in any state (40_bus_adapter.md R130,
70_reset_and_hazards.md R260, R268, R276): for any contents of the registers at 0x80 and above, of the bank-1 registers below,
and of the pointer there is a draw that leaves exactly these, whether the address byte or another byte of a write or of a read
is refused or a read is short, and for a reset at every transaction to it of every command. That a draw lists stores is the
model's choice, and so is where a reset finds a transaction in progress (log 10, log 11). -/
def Obligations.FailedTransactionLeavesAnyState : Prop :=
  ∀ (s : State) (regs regs1 : BitVec 8 → Byte) (ptr : BitVec 8), s.target.kind = .reference →
    0x80 ≤ s.params.cfg0Reg.toNat →
    ∃ left : Leftover,
      let becomes := fun u : State => (∀ r, 0x80 ≤ r.toNat → u.target.reg r = regs r)
        ∧ (∀ r, r.toNat < 0x80 → u.target.reg1 r = regs1 r) ∧ u.target.ptr = ptr
      let drawing := fun d : Draw => s.setTarget (s.target.setScript (some d :: s.target.script))
      (∀ r bytes, ∃ u, busWrite s.params.devAddr r bytes (drawing (.nackAddr left)) = some (.nackAddr, u) ∧ becomes u)
      ∧ (∀ r bytes k, k ≤ bytes.length →
          ∃ u, busWrite s.params.devAddr r bytes (drawing (.nackByte k left)) = some (.nackData k, u) ∧ becomes u)
      ∧ (∀ r n, ∃ u, busRead s.params.devAddr r n (drawing (.nackAddr left)) = some ((.nack, []), u) ∧ becomes u)
      ∧ (∀ r n k, ∃ u, busRead s.params.devAddr r n (drawing (.nackByte k left)) = some ((.nack, []), u) ∧ becomes u)
      ∧ (∀ r n bytes, 1 ≤ n → ∃ u, busRead s.params.devAddr r n (drawing (.short bytes left))
          = some ((.short, bytes.take (n - 1)), u) ∧ becomes u)
      ∧ (∀ i c, s.status.busy = true → decode s.cmd = .ok i → s.ctx = some c → atTransaction i c s →
          (∀ a r n, i = .write a r n ∨ i = .read a r n → a = s.params.devAddr) →
          ∃ u, hostAccess (.reset left) s = .next u ∧ becomes u)

/-- The two views of the reference target through the bus (20_memory.md R63, R76, R77), byte `k` of a burst from `r` at register
`r + k`: at 0x80 and above it is `REGS` in either bank; below, with the bank bit 1, it is `REGS1`; below, with the bank bit 0, a
store is lost and a read may return any byte. A read changes no register, and `PTR` ends behind the burst. -/
def Obligations.ReferenceTargetResolvesByBank : Prop :=
  ∀ (s : State) (r : BitVec 8), s.target.kind = .reference → s.target.script = [] → 0x80 ≤ s.params.cfg0Reg.toNat →
    let bank1 := (s.target.reg s.params.cfg0Reg).getLsbD s.params.bankBit.val
    (∀ bytes : List Byte, r.toNat + bytes.length ≤ 256 →
      ∃ s', busWrite s.params.devAddr r bytes s = some (.ack, s') ∧ s'.target.ptr = r + BitVec.ofNat 8 bytes.length
        ∧ ∀ (k : Nat) (hk : k < bytes.length) (a : BitVec 8), a.toNat = r.toNat + k →
            (0x80 ≤ a.toNat → s'.target.reg a = bytes[k] ∧ s'.target.reg1 a = s.target.reg1 a)
            ∧ (a.toNat < 0x80 → bank1 = true → s'.target.reg1 a = bytes[k] ∧ s'.target.reg a = s.target.reg a)
            ∧ (a.toNat < 0x80 → bank1 = false → s'.target.reg1 a = s.target.reg1 a ∧ s'.target.reg a = s.target.reg a))
    ∧ ∀ n : Nat, r.toNat + n ≤ 256 →
        ∃ bytes s', busRead s.params.devAddr r n s = some ((.none, bytes), s') ∧ bytes.length = n
          ∧ s'.target.ptr = r + BitVec.ofNat 8 n ∧ (∀ b, s'.target.reg b = s.target.reg b ∧ s'.target.reg1 b = s.target.reg1 b)
          ∧ ∀ (k : Nat) (hk : k < bytes.length) (a : BitVec 8), a.toNat = r.toNat + k →
              (0x80 ≤ a.toNat → bytes[k] = s.target.reg a)
              ∧ (a.toNat < 0x80 → bank1 = true → bytes[k] = s.target.reg1 a)

/-- A transaction to another address than `DEV_ADDR` does not reach the reference target: whatever answers it and whatever its
draw lists, the device keeps every register and its pointer, and so it does over a whole `WRITE` or `READ` to that address
(20_memory.md R61, R77, 40_bus_adapter.md R136, R137). -/
def Obligations.OtherAddressesLeaveDevice : Prop :=
  ∀ (a : BitVec 7) (r : BitVec 8) (s : State), a ≠ s.params.devAddr →
    (∀ bytes o s', busWrite a r bytes s = some (o, s') → sameDevice s s')
    ∧ (∀ n x s', busRead a r n s = some (x, s') → sameDevice s s')
    ∧ ∀ (n : BitVec 6) (t : State), exec (.write a r n) s = .next t ∨ exec (.read a r n) s = .next t → sameDevice s t

/-- A turn of the target by itself changes the target and nothing else but the agenda: the controller, the clock, the host and the
parameters stay as they were (00_scope.md R6, 70_reset_and_hazards.md R262). The sensor engine changes `REGS` alone, as
20_memory.md R77 allows; after a power cycle every register of both views holds a free value of the new power-up (log 9). -/
def Obligations.TargetEventsChangeOnlyTarget : Prop :=
  ∀ (s : State) (rest : List Event),
    (∀ r v, s.agenda = .engine r v :: rest →
      step s = .next { s with
        agenda := rest, target := { s.target with regs := (s.target.engineStore s.params r v).regs } })
    ∧ (s.agenda = .powerCycle :: rest →
        ∃ t : Target, step s = .next { s with agenda := rest, target := t }
          ∧ t.kind = s.target.kind ∧ t.script = s.target.script ∧ t.draws = s.target.draws
          ∧ t.powerUps = s.target.powerUps + 1
          ∧ ∀ r, t.reg r = Config.powerUpByte t.powerUps false r ∧ t.reg1 r = Config.powerUpByte t.powerUps true r)
end

