-- ==== Sys2Proof/Laws/Memory.lean ====
section
/-! SUPPORT. The registers of the reference target: reading back what was stored, and the canonical form that every operation
on them keeps. -/

namespace Sys2Proof.Machine

@[simp] theorem Memory.read_nil (a : Nat) : Memory.read a [] = none := rfl

@[simp] theorem Memory.read_cons (a : Nat) (x : Host.Cell) (m : Memory) :
    Memory.read a (x :: m) = if x.1 = a then some x.2 else Memory.read a m := rfl

/-- Reading the address just stored gives the byte stored. -/
theorem Memory.read_write_same (a : Nat) (v : Byte) (m : Memory) : Memory.read a (Memory.write a v m) = some v := by
  induction m with
  | nil => simp [Memory.write]
  | cons x m ih =>
    unfold Memory.write
    split
    · simp
    · split
      · simp
      · rw [Memory.read_cons, if_neg (by omega), ih]

/-- A store leaves every other address as it was. -/
theorem Memory.read_write_other {a b : Nat} (h : b ≠ a) (v : Byte) (m : Memory) :
    Memory.read b (Memory.write a v m) = Memory.read b m := by
  induction m with
  | nil => simp [Memory.write, Ne.symm h]
  | cons x m ih =>
    unfold Memory.write
    split
    · simp [Ne.symm h]
    · split
      · next hx => simp [Ne.symm h, ← hx]
      · simp [ih]

/-- The head of a canonical memory lies below the heads of its tail. -/
theorem Memory.wf_cons {x : Host.Cell} {m : Memory} :
    Memory.wf (x :: m) = true ↔ (∀ y ∈ m.head?, x.1 < y.1) ∧ Memory.wf m = true := by
  cases m with
  | nil => simp [Memory.wf]
  | cons y m => simp [Memory.wf]

/-- The first address after a store is the one stored or the first one before. -/
theorem Memory.head_write (a : Nat) (v : Byte) (m : Memory) :
    ∀ y ∈ (Memory.write a v m).head?, y.1 = a ∨ ∃ x ∈ m.head?, y.1 = x.1 := by
  intro y hy
  cases m with
  | nil => simp [Memory.write] at hy; simp [← hy]
  | cons x m =>
    unfold Memory.write at hy
    split at hy
    · simp at hy; simp [← hy]
    · split at hy
      · simp at hy; simp [← hy]
      · simp at hy; simp [← hy]

/-- A store keeps the canonical form. -/
theorem Memory.wf_write (a : Nat) (v : Byte) {m : Memory} (h : m.wf = true) : (Memory.write a v m).wf = true := by
  induction m with
  | nil => rfl
  | cons x m ih =>
    obtain ⟨hx, hm⟩ := Memory.wf_cons.mp h
    unfold Memory.write
    split
    · next hlt => exact Memory.wf_cons.mpr ⟨by simp [hlt], h⟩
    · split
      · next heq => exact Memory.wf_cons.mpr ⟨by simpa [heq] using hx, hm⟩
      · next h1 h2 =>
        refine Memory.wf_cons.mpr ⟨?_, ih hm⟩
        intro y hy
        obtain hya | ⟨z, hz, hyz⟩ := Memory.head_write a v m y hy
        · omega
        · have := hx z hz; omega

/-- A store at an address below the bound keeps every address below it. -/
theorem Memory.below_write {n a : Nat} (ha : a < n) (v : Byte) {m : Memory} (h : m.below n = true) :
    (Memory.write a v m).below n = true := by
  induction m with
  | nil => simpa [Memory.write, Memory.below] using ha
  | cons x m ih =>
    simp only [Memory.below, List.all_cons, Bool.and_eq_true, decide_eq_true_eq] at h ih ⊢
    unfold Memory.write
    split
    · simp only [List.all_cons, Bool.and_eq_true, decide_eq_true_eq]; exact ⟨ha, h⟩
    · split
      · simp only [List.all_cons, Bool.and_eq_true, decide_eq_true_eq]; exact ⟨ha, h.2⟩
      · simp only [List.all_cons, Bool.and_eq_true, decide_eq_true_eq]; exact ⟨h.1, ih h.2⟩

/-! Every operation of the target keeps its registers sound. -/

theorem Target.sound_setPtr {t : Target} (h : t.Sound) (x : BitVec 8) : (t.setPtr x).Sound := h

theorem Target.sound_setDraws {t : Target} (h : t.Sound) (x : Nat) : (t.setDraws x).Sound := h

theorem Target.sound_setScript {t : Target} (h : t.Sound) (x : List (Option Draw)) : (t.setScript x).Sound := h

theorem Target.sound_regsWrite {t : Target} (h : t.Sound) (r : BitVec 8) (v : Byte) :
    (t.setRegs (t.regs.write r.toNat v)).Sound := by
  obtain ⟨h1, h2, h3, h4⟩ := h
  exact ⟨Memory.wf_write _ _ h1, h2, Memory.below_write r.isLt v h3, h4⟩

theorem Target.sound_storeReg {t : Target} (h : t.Sound) (p : Params) (r : BitVec 8) (v : Byte) :
    (t.storeReg p r v).Sound := by
  unfold Target.storeReg
  split
  · exact Target.sound_regsWrite h r v
  · next hr =>
    split
    · obtain ⟨h1, h2, h3, h4⟩ := h
      exact ⟨h1, Memory.wf_write _ _ h2, h3, Memory.below_write (by omega) v h4⟩
    · exact h

theorem Target.sound_storeBurst (p : Params) (bytes : List Byte) :
    ∀ {t : Target} (r : BitVec 8), t.Sound → (t.storeBurst p r bytes).Sound := by
  induction bytes with
  | nil => intro t r h; exact Target.sound_setPtr h r
  | cons v vs ih => intro t r h; exact ih (r + 1) (Target.sound_storeReg h p r v)

theorem Target.sound_storeAll (p : Params) (xs : List (BitVec 8 × Byte)) :
    ∀ {t : Target}, t.Sound → (t.storeAll p xs).Sound := by
  induction xs with
  | nil => intro t h; exact h
  | cons x xs ih => intro t h; exact ih (Target.sound_storeReg h p x.1 x.2)

/-- Register `k + 1` of a burst from `r` is register `k` of the burst from the next register, modulo 256. -/
theorem register_succ (r : BitVec 8) (k : Nat) : r + BitVec.ofNat 8 (k + 1) = r + 1 + BitVec.ofNat 8 k := by
  rw [Nat.add_comm k 1, BitVec.ofNat_add, BitVec.add_assoc]; rfl

/-- A stored burst leaves `PTR` behind it (20_memory.md R77). -/
theorem Target.storeBurst_ptr (p : Params) (bytes : List Byte) :
    ∀ (r : BitVec 8) (t : Target), (t.storeBurst p r bytes).ptr = r + BitVec.ofNat 8 bytes.length := by
  induction bytes with
  | nil => intro r t; exact (BitVec.add_zero r).symm
  | cons v vs ih => intro r t; exact (ih (r + 1) _).trans (register_succ r vs.length).symm

/-- A read burst leaves `PTR` behind it (20_memory.md R77). -/
theorem Target.fetchBurst_ptr (p : Params) (n : Nat) :
    ∀ (r : BitVec 8) (t : Target), (t.fetchBurst p n r).2.ptr = r + BitVec.ofNat 8 n := by
  induction n with
  | zero => intro r t; exact (BitVec.add_zero r).symm
  | succ n ih => intro r t; exact (ih (r + 1) _).trans (register_succ r n).symm

/-! Which registers a store leaves as they were. -/

@[refl] theorem Target.SameAt.refl (a : Nat) (t : Target) : t.SameAt a t := ⟨rfl, rfl, rfl⟩

theorem Target.SameAt.trans {a : Nat} {t t' t'' : Target} (h : t.SameAt a t') (h' : t'.SameAt a t'') : t.SameAt a t'' :=
  ⟨h'.1.trans h.1, h'.2.1.trans h.2.1, h'.2.2.trans h.2.2⟩

/-- A register that is the same in this sense holds the same byte. -/
theorem Target.SameAt.reg {b : BitVec 8} {t t' : Target} (h : t.SameAt b.toNat t') :
    t'.reg b = t.reg b ∧ t'.reg1 b = t.reg1 b := by
  obtain ⟨h0, h1, h2⟩ := h
  exact ⟨by rw [Target.reg, Target.reg, h0, h1], by rw [Target.reg1, Target.reg1, h0, h2]⟩

/-- Targets with the same registers and power-ups are the same at every register. -/
theorem Target.SameAt.of_regs {t t' : Target} (h : t'.regs = t.regs ∧ t'.regs1 = t.regs1 ∧ t'.powerUps = t.powerUps)
    (a : Nat) : t.SameAt a t' := ⟨h.2.2, by rw [h.1], by rw [h.2.1]⟩

/-- A store changes one register. -/
theorem Target.storeReg_other {a : Nat} {r : BitVec 8} (h : a ≠ r.toNat) (p : Params) (v : Byte) (t : Target) :
    t.SameAt a (t.storeReg p r v) := by
  unfold Target.storeReg
  split
  · exact ⟨rfl, Memory.read_write_other h v _, rfl⟩
  · split
    · exact ⟨rfl, rfl, Memory.read_write_other h v _⟩
    · exact .refl a t

/-- A burst changes the registers it covers and no other (20_memory.md R63, R77). -/
theorem Target.storeBurst_other {a : Nat} (p : Params) (bytes : List Byte) :
    ∀ (r : BitVec 8) (t : Target), r.toNat + bytes.length ≤ 256 → a < r.toNat ∨ r.toNat + bytes.length ≤ a →
      t.SameAt a (t.storeBurst p r bytes) := by
  induction bytes with
  | nil => intro r t _ _; exact ⟨rfl, rfl, rfl⟩
  | cons v vs ih =>
    intro r t hr ha
    simp only [List.length_cons] at hr ha
    have hone := Target.storeReg_other (a := a) (r := r) (by omega) p v t
    cases vs with
    | nil => exact hone
    | cons w ws =>
      simp only [List.length_cons] at hr ha ih
      have hnext : (r + 1).toNat = r.toNat + 1 := by rw [BitVec.toNat_add]; simp; omega
      exact hone.trans (ih (r + 1) _ (by omega) (by omega))

/-- What a store does to the register it addresses: at 0x80 and above it is `REGS`, below it is `REGS1` in bank 1 and lost in
bank 0 (20_memory.md R76, R77). -/
theorem Target.storeReg_resolves (p : Params) (r : BitVec 8) (v : Byte) (t : Target) :
    (0x80 ≤ r.toNat → (t.storeReg p r v).regs.read r.toNat = some v ∧ (t.storeReg p r v).regs1 = t.regs1)
      ∧ (r.toNat < 0x80 → t.inBank1 p = true →
          (t.storeReg p r v).regs1.read r.toNat = some v ∧ (t.storeReg p r v).regs = t.regs)
      ∧ (r.toNat < 0x80 → t.inBank1 p = false → t.storeReg p r v = t) := by
  unfold Target.storeReg
  refine ⟨fun h => ?_, fun h hb => ?_, fun h hb => ?_⟩
  · rw [if_pos h]; exact ⟨Memory.read_write_same _ _ _, rfl⟩
  · rw [if_neg (by omega), if_pos hb]; exact ⟨Memory.read_write_same _ _ _, rfl⟩
  · rw [if_neg (by omega), hb]; rfl

/-- A store below 0x80 leaves the bank, since the bank register is at 0x80 or above (00_scope.md R8, 20_memory.md R76). -/
theorem Target.storeReg_inBank1 {p : Params} {r : BitVec 8} (hr : r.toNat < p.cfg0Reg.toNat) (v : Byte) (t : Target) :
    (t.storeReg p r v).inBank1 p = t.inBank1 p := by
  unfold Target.inBank1
  rw [(Target.storeReg_other (a := p.cfg0Reg.toNat) (by omega) p v t).reg.1]

/-- After a burst, byte `k` is in the register that `r + k` resolves to (20_memory.md R63, R76, R77). -/
theorem Target.storeBurst_resolves (p : Params) (bytes : List Byte) :
    ∀ (r : BitVec 8) (t : Target), r.toNat + bytes.length ≤ 256 → ∀ k (hk : k < bytes.length),
      (0x80 ≤ r.toNat + k → (t.storeBurst p r bytes).regs.read (r.toNat + k) = some bytes[k]
          ∧ (t.storeBurst p r bytes).regs1.read (r.toNat + k) = t.regs1.read (r.toNat + k))
        ∧ (r.toNat + k < 0x80 → 0x80 ≤ p.cfg0Reg.toNat → t.inBank1 p = true →
            (t.storeBurst p r bytes).regs1.read (r.toNat + k) = some bytes[k]
            ∧ (t.storeBurst p r bytes).regs.read (r.toNat + k) = t.regs.read (r.toNat + k))
        ∧ (r.toNat + k < 0x80 → 0x80 ≤ p.cfg0Reg.toNat → t.inBank1 p = false →
            t.SameAt (r.toNat + k) (t.storeBurst p r bytes)) := by
  induction bytes with
  | nil => intro r t _ k hk; cases hk
  | cons v vs ih =>
    intro r t htop k hk
    simp only [List.length_cons] at htop hk
    have hnext (h : 0 < vs.length) : (r + 1).toNat = r.toNat + 1 := by rw [BitVec.toNat_add]; simp; omega
    cases k with
    | zero =>
      have hkeep : (t.storeReg p r v).SameAt r.toNat (t.storeBurst p r (v :: vs)) := by
        cases vs with
        | nil => exact .refl _ _
        | cons w ws =>
          have := hnext (by simp)
          exact Target.storeBurst_other p (w :: ws) (r + 1) _ (by omega) (.inl (by omega))
      obtain ⟨h1, h2, h3⟩ := Target.storeReg_resolves p r v t
      refine ⟨fun h => ?_, fun h _ hb => ?_, fun h _ hb => ?_⟩
      · exact ⟨hkeep.2.1.trans (h1 h).1, hkeep.2.2.trans (by rw [(h1 h).2, Nat.add_zero])⟩
      · exact ⟨hkeep.2.2.trans (h2 h hb).1, hkeep.2.1.trans (by rw [(h2 h hb).2, Nat.add_zero])⟩
      · rw [h3 h hb] at hkeep; exact hkeep
    | succ k =>
      have hr := hnext (by omega)
      have hone := Target.storeReg_other (a := r.toNat + (k + 1)) (r := r) (by omega) p v t
      have hbank (h : r.toNat + (k + 1) < 0x80) (hc : 0x80 ≤ p.cfg0Reg.toNat) :=
        Target.storeReg_inBank1 (p := p) (r := r) (by omega) v t
      have hrest := ih (r + 1) (t.storeReg p r v) (by omega) k (by omega)
      rw [hr, show r.toNat + 1 + k = r.toNat + (k + 1) by omega] at hrest
      obtain ⟨h1, h2, h3⟩ := hrest
      refine ⟨fun h => ?_, fun h hc hb => ?_, fun h hc hb => ?_⟩
      · exact ⟨(h1 h).1, (h1 h).2.trans hone.2.2⟩
      · have := h2 h hc ((hbank h hc).trans hb)
        exact ⟨this.1, this.2.trans hone.2.1⟩
      · exact hone.trans (h3 h hc ((hbank h hc).trans hb))

/-- Listed stores change the registers they list and no other. -/
theorem Target.storeAll_other {a : Nat} (p : Params) (xs : List (BitVec 8 × Byte)) :
    ∀ t : Target, (∀ x ∈ xs, x.1.toNat ≠ a) → t.SameAt a (t.storeAll p xs) := by
  induction xs with
  | nil => intro t _; exact .refl a t
  | cons x xs ih =>
    intro t h
    exact (Target.storeReg_other (Ne.symm (h x (by simp))) p x.2 t).trans (ih _ fun y hy => h y (by simp [hy]))

/-- A failed transaction changes the registers that its draw lists and no other (40_bus_adapter.md R130). -/
theorem Target.disturb_other {a : Nat} {left : Leftover} (h : ∀ x ∈ left.stores, x.1.toNat ≠ a) (p : Params)
    (b : BitVec 7) (t : Target) : t.SameAt a (t.disturb p b left) := by
  unfold Target.disturb
  split
  · exact Target.storeAll_other p left.stores t h
  · exact .refl a t

/-- Reading a burst stores nothing. -/
theorem Target.fetchBurst_regs (p : Params) (n : Nat) :
    ∀ (r : BitVec 8) (t : Target),
      (t.fetchBurst p n r).2.regs = t.regs ∧ (t.fetchBurst p n r).2.regs1 = t.regs1
        ∧ (t.fetchBurst p n r).2.powerUps = t.powerUps := by
  induction n with
  | zero => intro r t; exact ⟨rfl, rfl, rfl⟩
  | succ n ih =>
    intro r t
    have hone : (t.fetchReg p r).2.regs = t.regs ∧ (t.fetchReg p r).2.regs1 = t.regs1
        ∧ (t.fetchReg p r).2.powerUps = t.powerUps := by
      unfold Target.fetchReg
      split
      · exact ⟨rfl, rfl, rfl⟩
      · split <;> exact ⟨rfl, rfl, rfl⟩
    obtain ⟨h1, h2, h3⟩ := ih (r + 1) (t.fetchReg p r).2
    exact ⟨h1.trans hone.1, h2.trans hone.2.1, h3.trans hone.2.2⟩

/-- The registers of the reference target read back byte by byte: byte `k` is the register that `r + k` resolves to, where that
is specified (20_memory.md R63, R76, R77). -/
theorem Target.fetchBurst_resolves (p : Params) (n : Nat) :
    ∀ (r : BitVec 8) (t : Target) (k : Nat), k < n → ∀ a : BitVec 8, a = r + BitVec.ofNat 8 k →
      (0x80 ≤ a.toNat → (t.fetchBurst p n r).1[k]? = some (t.reg a))
        ∧ (a.toNat < 0x80 → t.inBank1 p = true → (t.fetchBurst p n r).1[k]? = some (t.reg1 a)) := by
  induction n with
  | zero => intro r t k hk; cases hk
  | succ n ih =>
    intro r t k hk a ha
    cases k with
    | zero =>
      obtain rfl : a = r := by simpa using ha
      refine ⟨fun h => ?_, fun h hb => ?_⟩
      · show some (t.fetchReg p a).1 = _
        rw [Target.fetchReg, if_pos h]
      · show some (t.fetchReg p a).1 = _
        rw [Target.fetchReg, if_neg (by omega), if_pos hb]
    | succ k =>
      have hsame (b : BitVec 8) : (t.fetchReg p r).2.reg b = t.reg b ∧ (t.fetchReg p r).2.reg1 b = t.reg1 b := by
        unfold Target.fetchReg
        split
        · exact ⟨rfl, rfl⟩
        · split <;> exact ⟨rfl, rfl⟩
      have hbank : (t.fetchReg p r).2.inBank1 p = t.inBank1 p := by unfold Target.inBank1; rw [(hsame p.cfg0Reg).1]
      obtain ⟨h1, h2⟩ := ih (r + 1) (t.fetchReg p r).2 k (by omega) a (ha.trans (register_succ r k))
      rw [hbank, (hsame a).1] at *
      rw [(hsame a).2] at h2
      exact ⟨h1, h2⟩

/-- A burst read returns as many bytes as were asked for. -/
theorem Target.fetchBurst_length (p : Params) (n : Nat) :
    ∀ (r : BitVec 8) (t : Target), (t.fetchBurst p n r).1.length = n := by
  induction n with
  | zero => intro r t; rfl
  | succ n ih => intro r t; simp [Target.fetchBurst, ih]

/-- Finding the answer to a transaction stores nothing and leaves the kind of the target. -/
theorem Target.nextAnswer_regs (t : Target) :
    t.nextAnswer.2.regs = t.regs ∧ t.nextAnswer.2.regs1 = t.regs1 ∧ t.nextAnswer.2.powerUps = t.powerUps
      ∧ t.nextAnswer.2.kind = t.kind := by
  unfold Target.nextAnswer Target.ownAnswer
  split
  · split <;> exact ⟨rfl, rfl, rfl, rfl⟩
  · exact ⟨rfl, rfl, rfl, rfl⟩
  · split <;> exact ⟨rfl, rfl, rfl, rfl⟩

theorem Target.sound_of_regs {t t' : Target} (h : t.Sound) (h1 : t'.regs = t.regs) (h2 : t'.regs1 = t.regs1) :
    t'.Sound := by
  unfold Target.Sound at *
  rw [h1, h2]; exact h

theorem Target.sound_nextAnswer {t : Target} (h : t.Sound) : t.nextAnswer.2.Sound :=
  Target.sound_of_regs h (Target.nextAnswer_regs t).1 (Target.nextAnswer_regs t).2.1

theorem Target.sound_absorb {t : Target} (h : t.Sound) (p : Params) (a : BitVec 7) (r : BitVec 8) (bytes : List Byte) :
    (t.absorb p a r bytes).Sound := by
  unfold Target.absorb
  split
  · exact Target.sound_storeBurst p bytes r h
  · exact h

theorem Target.sound_leave {t : Target} (h : t.Sound) (p : Params) (left : Leftover) : (t.leave p left).Sound :=
  Target.sound_setPtr (Target.sound_storeAll p left.stores h) _

theorem Target.sound_disturb {t : Target} (h : t.Sound) (p : Params) (a : BitVec 7) (left : Leftover) :
    (t.disturb p a left).Sound := by
  unfold Target.disturb
  split
  · exact Target.sound_leave h p left
  · exact h

theorem Target.sound_write {t t' : Target} {p : Params} {a : BitVec 7} {r : BitVec 8} {bytes : List Byte} {o : WriteOutcome}
    (h : t.Sound) (hw : t.write p a r bytes = some (o, t')) : t'.Sound := by
  have hn := Target.sound_nextAnswer h
  unfold Target.write at hw
  split at hw
  · next t1 heq =>
    rw [heq] at hn
    split at hw
    · cases hw; exact Target.sound_absorb hn p a r bytes
    · cases hw; exact hn
  · cases hw
  · next left t1 heq => rw [heq] at hn; cases hw; exact Target.sound_disturb hn p a left
  · next k left t1 heq =>
    rw [heq] at hn
    split at hw
    · cases hw; exact Target.sound_disturb hn p a left
    · cases hw; exact Target.sound_absorb hn p a r bytes
  · next bs left t1 heq => rw [heq] at hn; cases hw; exact Target.sound_absorb hn p a r bytes
  · next bs t1 heq => rw [heq] at hn; cases hw; exact Target.sound_absorb hn p a r bytes

/-- A read transaction returns at most the bytes asked for, and stores nothing in the reference target or, where it fails,
what its draw says was left. -/
theorem Target.read_spec {t t' : Target} {p : Params} {a : BitVec 7} {r : BitVec 8} {n : Nat} {o : PointerOutcome}
    {bytes : List Byte} (hr : t.read p a r n = some (o, bytes, t')) :
    bytes.length ≤ n ∧ ((t'.regs = t.regs ∧ t'.regs1 = t.regs1 ∧ t'.powerUps = t.powerUps)
      ∨ ∃ d, t.nextAnswer.1 = some d ∧ t' = t.nextAnswer.2.disturb p a d.left) := by
  obtain ⟨h1, h2, h3, -⟩ := Target.nextAnswer_regs t
  unfold Target.read at hr
  split at hr
  · next t1 heq =>
    rw [heq] at h1 h2 h3
    split at hr
    · cases hr
      obtain ⟨g1, g2, g3⟩ := Target.fetchBurst_regs p n r t1
      exact ⟨(Target.fetchBurst_length p n r t1).le, .inl ⟨g1.trans h1, g2.trans h2, g3.trans h3⟩⟩
    · cases hr; exact ⟨Nat.zero_le n, .inl ⟨h1, h2, h3⟩⟩
  · cases hr
  · next left t1 heq => rw [heq]; cases hr; exact ⟨Nat.zero_le n, .inr ⟨_, rfl, rfl⟩⟩
  · next k left t1 heq => rw [heq]; cases hr; exact ⟨Nat.zero_le n, .inr ⟨_, rfl, rfl⟩⟩
  · next bs left t1 heq => rw [heq]; cases hr; exact ⟨by simp, .inr ⟨_, rfl, rfl⟩⟩
  · next bs t1 heq => rw [heq] at h1 h2 h3; cases hr; exact ⟨by simp, .inl ⟨h1, h2, h3⟩⟩

theorem Target.sound_read {t t' : Target} {p : Params} {a : BitVec 7} {r : BitVec 8} {n : Nat} {o : PointerOutcome}
    {bytes : List Byte} (h : t.Sound) (hr : t.read p a r n = some (o, bytes, t')) : t'.Sound := by
  obtain ⟨-, ⟨h1, h2, -⟩ | ⟨d, -, rfl⟩⟩ := Target.read_spec hr
  · exact Target.sound_of_regs h h1 h2
  · exact Target.sound_disturb (Target.sound_nextAnswer h) p a d.left

/-- Finding the answer leaves every register as it was. -/
theorem Target.nextAnswer_same (a : Nat) (t : Target) : t.SameAt a t.nextAnswer.2 := by
  obtain ⟨h1, h2, h3, -⟩ := Target.nextAnswer_regs t
  exact .of_regs ⟨h1, h2, h3⟩ a

/-- A write transaction changes the registers it covers and, where it fails, those its draw lists (R77, R130). -/
theorem Target.write_other {t t' : Target} {p : Params} {b : BitVec 7} {r : BitVec 8} {bytes : List Byte} {o : WriteOutcome}
    {a : Nat} (hw : t.write p b r bytes = some (o, t')) (hr : r.toNat + bytes.length ≤ 256)
    (ha : a < r.toNat ∨ r.toNat + bytes.length ≤ a)
    (hn : ∀ d, t.nextAnswer.1 = some d → ∀ x ∈ d.left.stores, x.1.toNat ≠ a) : t.SameAt a t' := by
  have hfirst := Target.nextAnswer_same a t
  have habsorb (t1 : Target) : t1.SameAt a (t1.absorb p b r bytes) := by
    unfold Target.absorb
    split
    · exact Target.storeBurst_other p bytes r t1 hr ha
    · exact .refl a t1
  unfold Target.write at hw
  split at hw
  · next t1 heq =>
    rw [heq] at hfirst
    split at hw
    · cases hw; exact hfirst.trans (habsorb t1)
    · cases hw; exact hfirst
  · cases hw
  · next left t1 heq =>
    rw [heq] at hfirst hn
    cases hw; exact hfirst.trans (Target.disturb_other (hn _ rfl) p b t1)
  · next k left t1 heq =>
    rw [heq] at hfirst hn
    split at hw
    · cases hw; exact hfirst.trans (Target.disturb_other (hn _ rfl) p b t1)
    · cases hw; exact hfirst.trans (habsorb t1)
  · next bs left t1 heq => rw [heq] at hfirst; cases hw; exact hfirst.trans (habsorb t1)
  · next bs t1 heq => rw [heq] at hfirst; cases hw; exact hfirst.trans (habsorb t1)

/-- A read transaction changes no register or, where it fails, those its draw lists (R130). -/
theorem Target.read_other {t t' : Target} {p : Params} {b : BitVec 7} {r : BitVec 8} {n : Nat} {o : PointerOutcome}
    {bytes : List Byte} {a : Nat} (hr : t.read p b r n = some (o, bytes, t'))
    (hn : ∀ d, t.nextAnswer.1 = some d → ∀ x ∈ d.left.stores, x.1.toNat ≠ a) : t.SameAt a t' := by
  obtain ⟨-, hregs | ⟨d, hd, rfl⟩⟩ := Target.read_spec hr
  · exact .of_regs hregs a
  · exact (Target.nextAnswer_same a t).trans (Target.disturb_other (hn d hd) p b _)

theorem Target.sound_engineStore {t : Target} (h : t.Sound) (p : Params) (r : BitVec 8) (v : Byte) :
    (t.engineStore p r v).Sound := by
  unfold Target.engineStore
  split
  · exact Target.sound_regsWrite h r v
  · exact h

theorem Target.sound_powerCycle (t : Target) : t.powerCycle.Sound := ⟨rfl, rfl, rfl, rfl⟩

theorem Target.sound_cutOff {t : Target} (h : t.Sound) (p : Params) (a : BitVec 7) (cut : Leftover) :
    (t.cutOff p a cut).Sound := Target.sound_disturb h p a cut

/-- A transaction to another address than `DEV_ADDR` leaves the device as it is, failed or not (20_memory.md R77). -/
theorem Target.disturb_elsewhere {p : Params} {a : BitVec 7} (h : a ≠ p.devAddr) (left : Leftover) (t : Target) :
    t.disturb p a left = t := by simp [Target.disturb, Target.isDevice, h]

theorem Target.absorb_elsewhere {p : Params} {a : BitVec 7} (h : a ≠ p.devAddr) (r : BitVec 8) (bytes : List Byte)
    (t : Target) : t.absorb p a r bytes = t := by simp [Target.absorb, Target.isDevice, h]

/-- Nothing is listed in the target of the machine after reset, so it is sound. -/
theorem Target.sound_atReset : Target.atReset.Sound := ⟨rfl, rfl, rfl, rfl⟩

end Sys2Proof.Machine
end

