-- ==== Sys2Proof/Laws/State.lean ====
section
/-! SUPPORT. One lemma per field per update of the state records, true by `rfl`, so that no proof unfolds a record update. -/

namespace Sys2Proof.Machine

variable (s : State) (t : Status) (r : Result) (g : Target)


/-! `setCmd`. -/

@[simp] theorem State.setCmd_cmd (x : Word) : (s.setCmd x).cmd = x := rfl
@[simp] theorem State.setCmd_arg (x : Word) : (s.setCmd x).arg = s.arg := rfl
@[simp] theorem State.setCmd_status (x : Word) : (s.setCmd x).status = s.status := rfl
@[simp] theorem State.setCmd_timeout (x : Word) : (s.setCmd x).timeout = s.timeout := rfl
@[simp] theorem State.setCmd_result (x : Word) : (s.setCmd x).result = s.result := rfl
@[simp] theorem State.setCmd_buf (x : Word) : (s.setCmd x).buf = s.buf := rfl
@[simp] theorem State.setCmd_ch (x : Word) : (s.setCmd x).ch = s.ch := rfl
@[simp] theorem State.setCmd_sorted (x : Word) : (s.setCmd x).sorted = s.sorted := rfl
@[simp] theorem State.setCmd_ctx (x : Word) : (s.setCmd x).ctx = s.ctx := rfl
@[simp] theorem State.setCmd_nowMs (x : Word) : (s.setCmd x).nowMs = s.nowMs := rfl
@[simp] theorem State.setCmd_target (x : Word) : (s.setCmd x).target = s.target := rfl
@[simp] theorem State.setCmd_host (x : Word) : (s.setCmd x).host = s.host := rfl
@[simp] theorem State.setCmd_agenda (x : Word) : (s.setCmd x).agenda = s.agenda := rfl
@[simp] theorem State.setCmd_rounds (x : Word) : (s.setCmd x).rounds = s.rounds := rfl
@[simp] theorem State.setCmd_spent (x : Word) : (s.setCmd x).spent = s.spent := rfl
@[simp] theorem State.setCmd_params (x : Word) : (s.setCmd x).params = s.params := rfl

/-! `setArg`. -/

@[simp] theorem State.setArg_cmd (x : Word) : (s.setArg x).cmd = s.cmd := rfl
@[simp] theorem State.setArg_arg (x : Word) : (s.setArg x).arg = x := rfl
@[simp] theorem State.setArg_status (x : Word) : (s.setArg x).status = s.status := rfl
@[simp] theorem State.setArg_timeout (x : Word) : (s.setArg x).timeout = s.timeout := rfl
@[simp] theorem State.setArg_result (x : Word) : (s.setArg x).result = s.result := rfl
@[simp] theorem State.setArg_buf (x : Word) : (s.setArg x).buf = s.buf := rfl
@[simp] theorem State.setArg_ch (x : Word) : (s.setArg x).ch = s.ch := rfl
@[simp] theorem State.setArg_sorted (x : Word) : (s.setArg x).sorted = s.sorted := rfl
@[simp] theorem State.setArg_ctx (x : Word) : (s.setArg x).ctx = s.ctx := rfl
@[simp] theorem State.setArg_nowMs (x : Word) : (s.setArg x).nowMs = s.nowMs := rfl
@[simp] theorem State.setArg_target (x : Word) : (s.setArg x).target = s.target := rfl
@[simp] theorem State.setArg_host (x : Word) : (s.setArg x).host = s.host := rfl
@[simp] theorem State.setArg_agenda (x : Word) : (s.setArg x).agenda = s.agenda := rfl
@[simp] theorem State.setArg_rounds (x : Word) : (s.setArg x).rounds = s.rounds := rfl
@[simp] theorem State.setArg_spent (x : Word) : (s.setArg x).spent = s.spent := rfl
@[simp] theorem State.setArg_params (x : Word) : (s.setArg x).params = s.params := rfl

/-! `setStatus`. -/

@[simp] theorem State.setStatus_cmd (x : Status) : (s.setStatus x).cmd = s.cmd := rfl
@[simp] theorem State.setStatus_arg (x : Status) : (s.setStatus x).arg = s.arg := rfl
@[simp] theorem State.setStatus_status (x : Status) : (s.setStatus x).status = x := rfl
@[simp] theorem State.setStatus_timeout (x : Status) : (s.setStatus x).timeout = s.timeout := rfl
@[simp] theorem State.setStatus_result (x : Status) : (s.setStatus x).result = s.result := rfl
@[simp] theorem State.setStatus_buf (x : Status) : (s.setStatus x).buf = s.buf := rfl
@[simp] theorem State.setStatus_ch (x : Status) : (s.setStatus x).ch = s.ch := rfl
@[simp] theorem State.setStatus_sorted (x : Status) : (s.setStatus x).sorted = s.sorted := rfl
@[simp] theorem State.setStatus_ctx (x : Status) : (s.setStatus x).ctx = s.ctx := rfl
@[simp] theorem State.setStatus_nowMs (x : Status) : (s.setStatus x).nowMs = s.nowMs := rfl
@[simp] theorem State.setStatus_target (x : Status) : (s.setStatus x).target = s.target := rfl
@[simp] theorem State.setStatus_host (x : Status) : (s.setStatus x).host = s.host := rfl
@[simp] theorem State.setStatus_agenda (x : Status) : (s.setStatus x).agenda = s.agenda := rfl
@[simp] theorem State.setStatus_rounds (x : Status) : (s.setStatus x).rounds = s.rounds := rfl
@[simp] theorem State.setStatus_spent (x : Status) : (s.setStatus x).spent = s.spent := rfl
@[simp] theorem State.setStatus_params (x : Status) : (s.setStatus x).params = s.params := rfl

/-! `setTimeout`. -/

@[simp] theorem State.setTimeout_cmd (x : Word) : (s.setTimeout x).cmd = s.cmd := rfl
@[simp] theorem State.setTimeout_arg (x : Word) : (s.setTimeout x).arg = s.arg := rfl
@[simp] theorem State.setTimeout_status (x : Word) : (s.setTimeout x).status = s.status := rfl
@[simp] theorem State.setTimeout_timeout (x : Word) : (s.setTimeout x).timeout = x := rfl
@[simp] theorem State.setTimeout_result (x : Word) : (s.setTimeout x).result = s.result := rfl
@[simp] theorem State.setTimeout_buf (x : Word) : (s.setTimeout x).buf = s.buf := rfl
@[simp] theorem State.setTimeout_ch (x : Word) : (s.setTimeout x).ch = s.ch := rfl
@[simp] theorem State.setTimeout_sorted (x : Word) : (s.setTimeout x).sorted = s.sorted := rfl
@[simp] theorem State.setTimeout_ctx (x : Word) : (s.setTimeout x).ctx = s.ctx := rfl
@[simp] theorem State.setTimeout_nowMs (x : Word) : (s.setTimeout x).nowMs = s.nowMs := rfl
@[simp] theorem State.setTimeout_target (x : Word) : (s.setTimeout x).target = s.target := rfl
@[simp] theorem State.setTimeout_host (x : Word) : (s.setTimeout x).host = s.host := rfl
@[simp] theorem State.setTimeout_agenda (x : Word) : (s.setTimeout x).agenda = s.agenda := rfl
@[simp] theorem State.setTimeout_rounds (x : Word) : (s.setTimeout x).rounds = s.rounds := rfl
@[simp] theorem State.setTimeout_spent (x : Word) : (s.setTimeout x).spent = s.spent := rfl
@[simp] theorem State.setTimeout_params (x : Word) : (s.setTimeout x).params = s.params := rfl

/-! `setResult`. -/

@[simp] theorem State.setResult_cmd (x : Result) : (s.setResult x).cmd = s.cmd := rfl
@[simp] theorem State.setResult_arg (x : Result) : (s.setResult x).arg = s.arg := rfl
@[simp] theorem State.setResult_status (x : Result) : (s.setResult x).status = s.status := rfl
@[simp] theorem State.setResult_timeout (x : Result) : (s.setResult x).timeout = s.timeout := rfl
@[simp] theorem State.setResult_result (x : Result) : (s.setResult x).result = x := rfl
@[simp] theorem State.setResult_buf (x : Result) : (s.setResult x).buf = s.buf := rfl
@[simp] theorem State.setResult_ch (x : Result) : (s.setResult x).ch = s.ch := rfl
@[simp] theorem State.setResult_sorted (x : Result) : (s.setResult x).sorted = s.sorted := rfl
@[simp] theorem State.setResult_ctx (x : Result) : (s.setResult x).ctx = s.ctx := rfl
@[simp] theorem State.setResult_nowMs (x : Result) : (s.setResult x).nowMs = s.nowMs := rfl
@[simp] theorem State.setResult_target (x : Result) : (s.setResult x).target = s.target := rfl
@[simp] theorem State.setResult_host (x : Result) : (s.setResult x).host = s.host := rfl
@[simp] theorem State.setResult_agenda (x : Result) : (s.setResult x).agenda = s.agenda := rfl
@[simp] theorem State.setResult_rounds (x : Result) : (s.setResult x).rounds = s.rounds := rfl
@[simp] theorem State.setResult_spent (x : Result) : (s.setResult x).spent = s.spent := rfl
@[simp] theorem State.setResult_params (x : Result) : (s.setResult x).params = s.params := rfl

/-! `setBuf`. -/

@[simp] theorem State.setBuf_cmd (x : Vector Byte 32) : (s.setBuf x).cmd = s.cmd := rfl
@[simp] theorem State.setBuf_arg (x : Vector Byte 32) : (s.setBuf x).arg = s.arg := rfl
@[simp] theorem State.setBuf_status (x : Vector Byte 32) : (s.setBuf x).status = s.status := rfl
@[simp] theorem State.setBuf_timeout (x : Vector Byte 32) : (s.setBuf x).timeout = s.timeout := rfl
@[simp] theorem State.setBuf_result (x : Vector Byte 32) : (s.setBuf x).result = s.result := rfl
@[simp] theorem State.setBuf_buf (x : Vector Byte 32) : (s.setBuf x).buf = x := rfl
@[simp] theorem State.setBuf_ch (x : Vector Byte 32) : (s.setBuf x).ch = s.ch := rfl
@[simp] theorem State.setBuf_sorted (x : Vector Byte 32) : (s.setBuf x).sorted = s.sorted := rfl
@[simp] theorem State.setBuf_ctx (x : Vector Byte 32) : (s.setBuf x).ctx = s.ctx := rfl
@[simp] theorem State.setBuf_nowMs (x : Vector Byte 32) : (s.setBuf x).nowMs = s.nowMs := rfl
@[simp] theorem State.setBuf_target (x : Vector Byte 32) : (s.setBuf x).target = s.target := rfl
@[simp] theorem State.setBuf_host (x : Vector Byte 32) : (s.setBuf x).host = s.host := rfl
@[simp] theorem State.setBuf_agenda (x : Vector Byte 32) : (s.setBuf x).agenda = s.agenda := rfl
@[simp] theorem State.setBuf_rounds (x : Vector Byte 32) : (s.setBuf x).rounds = s.rounds := rfl
@[simp] theorem State.setBuf_spent (x : Vector Byte 32) : (s.setBuf x).spent = s.spent := rfl
@[simp] theorem State.setBuf_params (x : Vector Byte 32) : (s.setBuf x).params = s.params := rfl

/-! `setCh`. -/

@[simp] theorem State.setCh_cmd (x : Vector Half 18) : (s.setCh x).cmd = s.cmd := rfl
@[simp] theorem State.setCh_arg (x : Vector Half 18) : (s.setCh x).arg = s.arg := rfl
@[simp] theorem State.setCh_status (x : Vector Half 18) : (s.setCh x).status = s.status := rfl
@[simp] theorem State.setCh_timeout (x : Vector Half 18) : (s.setCh x).timeout = s.timeout := rfl
@[simp] theorem State.setCh_result (x : Vector Half 18) : (s.setCh x).result = s.result := rfl
@[simp] theorem State.setCh_buf (x : Vector Half 18) : (s.setCh x).buf = s.buf := rfl
@[simp] theorem State.setCh_ch (x : Vector Half 18) : (s.setCh x).ch = x := rfl
@[simp] theorem State.setCh_sorted (x : Vector Half 18) : (s.setCh x).sorted = s.sorted := rfl
@[simp] theorem State.setCh_ctx (x : Vector Half 18) : (s.setCh x).ctx = s.ctx := rfl
@[simp] theorem State.setCh_nowMs (x : Vector Half 18) : (s.setCh x).nowMs = s.nowMs := rfl
@[simp] theorem State.setCh_target (x : Vector Half 18) : (s.setCh x).target = s.target := rfl
@[simp] theorem State.setCh_host (x : Vector Half 18) : (s.setCh x).host = s.host := rfl
@[simp] theorem State.setCh_agenda (x : Vector Half 18) : (s.setCh x).agenda = s.agenda := rfl
@[simp] theorem State.setCh_rounds (x : Vector Half 18) : (s.setCh x).rounds = s.rounds := rfl
@[simp] theorem State.setCh_spent (x : Vector Half 18) : (s.setCh x).spent = s.spent := rfl
@[simp] theorem State.setCh_params (x : Vector Half 18) : (s.setCh x).params = s.params := rfl

/-! `setSorted`. -/

@[simp] theorem State.setSorted_cmd (x : Vector Half 12) : (s.setSorted x).cmd = s.cmd := rfl
@[simp] theorem State.setSorted_arg (x : Vector Half 12) : (s.setSorted x).arg = s.arg := rfl
@[simp] theorem State.setSorted_status (x : Vector Half 12) : (s.setSorted x).status = s.status := rfl
@[simp] theorem State.setSorted_timeout (x : Vector Half 12) : (s.setSorted x).timeout = s.timeout := rfl
@[simp] theorem State.setSorted_result (x : Vector Half 12) : (s.setSorted x).result = s.result := rfl
@[simp] theorem State.setSorted_buf (x : Vector Half 12) : (s.setSorted x).buf = s.buf := rfl
@[simp] theorem State.setSorted_ch (x : Vector Half 12) : (s.setSorted x).ch = s.ch := rfl
@[simp] theorem State.setSorted_sorted (x : Vector Half 12) : (s.setSorted x).sorted = x := rfl
@[simp] theorem State.setSorted_ctx (x : Vector Half 12) : (s.setSorted x).ctx = s.ctx := rfl
@[simp] theorem State.setSorted_nowMs (x : Vector Half 12) : (s.setSorted x).nowMs = s.nowMs := rfl
@[simp] theorem State.setSorted_target (x : Vector Half 12) : (s.setSorted x).target = s.target := rfl
@[simp] theorem State.setSorted_host (x : Vector Half 12) : (s.setSorted x).host = s.host := rfl
@[simp] theorem State.setSorted_agenda (x : Vector Half 12) : (s.setSorted x).agenda = s.agenda := rfl
@[simp] theorem State.setSorted_rounds (x : Vector Half 12) : (s.setSorted x).rounds = s.rounds := rfl
@[simp] theorem State.setSorted_spent (x : Vector Half 12) : (s.setSorted x).spent = s.spent := rfl
@[simp] theorem State.setSorted_params (x : Vector Half 12) : (s.setSorted x).params = s.params := rfl

/-! `setCtx`. -/

@[simp] theorem State.setCtx_cmd (x : Option Ctx) : (s.setCtx x).cmd = s.cmd := rfl
@[simp] theorem State.setCtx_arg (x : Option Ctx) : (s.setCtx x).arg = s.arg := rfl
@[simp] theorem State.setCtx_status (x : Option Ctx) : (s.setCtx x).status = s.status := rfl
@[simp] theorem State.setCtx_timeout (x : Option Ctx) : (s.setCtx x).timeout = s.timeout := rfl
@[simp] theorem State.setCtx_result (x : Option Ctx) : (s.setCtx x).result = s.result := rfl
@[simp] theorem State.setCtx_buf (x : Option Ctx) : (s.setCtx x).buf = s.buf := rfl
@[simp] theorem State.setCtx_ch (x : Option Ctx) : (s.setCtx x).ch = s.ch := rfl
@[simp] theorem State.setCtx_sorted (x : Option Ctx) : (s.setCtx x).sorted = s.sorted := rfl
@[simp] theorem State.setCtx_ctx (x : Option Ctx) : (s.setCtx x).ctx = x := rfl
@[simp] theorem State.setCtx_nowMs (x : Option Ctx) : (s.setCtx x).nowMs = s.nowMs := rfl
@[simp] theorem State.setCtx_target (x : Option Ctx) : (s.setCtx x).target = s.target := rfl
@[simp] theorem State.setCtx_host (x : Option Ctx) : (s.setCtx x).host = s.host := rfl
@[simp] theorem State.setCtx_agenda (x : Option Ctx) : (s.setCtx x).agenda = s.agenda := rfl
@[simp] theorem State.setCtx_rounds (x : Option Ctx) : (s.setCtx x).rounds = s.rounds := rfl
@[simp] theorem State.setCtx_spent (x : Option Ctx) : (s.setCtx x).spent = s.spent := rfl
@[simp] theorem State.setCtx_params (x : Option Ctx) : (s.setCtx x).params = s.params := rfl

/-! `setNowMs`. -/

@[simp] theorem State.setNowMs_cmd (x : Word) : (s.setNowMs x).cmd = s.cmd := rfl
@[simp] theorem State.setNowMs_arg (x : Word) : (s.setNowMs x).arg = s.arg := rfl
@[simp] theorem State.setNowMs_status (x : Word) : (s.setNowMs x).status = s.status := rfl
@[simp] theorem State.setNowMs_timeout (x : Word) : (s.setNowMs x).timeout = s.timeout := rfl
@[simp] theorem State.setNowMs_result (x : Word) : (s.setNowMs x).result = s.result := rfl
@[simp] theorem State.setNowMs_buf (x : Word) : (s.setNowMs x).buf = s.buf := rfl
@[simp] theorem State.setNowMs_ch (x : Word) : (s.setNowMs x).ch = s.ch := rfl
@[simp] theorem State.setNowMs_sorted (x : Word) : (s.setNowMs x).sorted = s.sorted := rfl
@[simp] theorem State.setNowMs_ctx (x : Word) : (s.setNowMs x).ctx = s.ctx := rfl
@[simp] theorem State.setNowMs_nowMs (x : Word) : (s.setNowMs x).nowMs = x := rfl
@[simp] theorem State.setNowMs_target (x : Word) : (s.setNowMs x).target = s.target := rfl
@[simp] theorem State.setNowMs_host (x : Word) : (s.setNowMs x).host = s.host := rfl
@[simp] theorem State.setNowMs_agenda (x : Word) : (s.setNowMs x).agenda = s.agenda := rfl
@[simp] theorem State.setNowMs_rounds (x : Word) : (s.setNowMs x).rounds = s.rounds := rfl
@[simp] theorem State.setNowMs_spent (x : Word) : (s.setNowMs x).spent = s.spent := rfl
@[simp] theorem State.setNowMs_params (x : Word) : (s.setNowMs x).params = s.params := rfl

/-! `setTarget`. -/

@[simp] theorem State.setTarget_cmd (x : Target) : (s.setTarget x).cmd = s.cmd := rfl
@[simp] theorem State.setTarget_arg (x : Target) : (s.setTarget x).arg = s.arg := rfl
@[simp] theorem State.setTarget_status (x : Target) : (s.setTarget x).status = s.status := rfl
@[simp] theorem State.setTarget_timeout (x : Target) : (s.setTarget x).timeout = s.timeout := rfl
@[simp] theorem State.setTarget_result (x : Target) : (s.setTarget x).result = s.result := rfl
@[simp] theorem State.setTarget_buf (x : Target) : (s.setTarget x).buf = s.buf := rfl
@[simp] theorem State.setTarget_ch (x : Target) : (s.setTarget x).ch = s.ch := rfl
@[simp] theorem State.setTarget_sorted (x : Target) : (s.setTarget x).sorted = s.sorted := rfl
@[simp] theorem State.setTarget_ctx (x : Target) : (s.setTarget x).ctx = s.ctx := rfl
@[simp] theorem State.setTarget_nowMs (x : Target) : (s.setTarget x).nowMs = s.nowMs := rfl
@[simp] theorem State.setTarget_target (x : Target) : (s.setTarget x).target = x := rfl
@[simp] theorem State.setTarget_host (x : Target) : (s.setTarget x).host = s.host := rfl
@[simp] theorem State.setTarget_agenda (x : Target) : (s.setTarget x).agenda = s.agenda := rfl
@[simp] theorem State.setTarget_rounds (x : Target) : (s.setTarget x).rounds = s.rounds := rfl
@[simp] theorem State.setTarget_spent (x : Target) : (s.setTarget x).spent = s.spent := rfl
@[simp] theorem State.setTarget_params (x : Target) : (s.setTarget x).params = s.params := rfl

/-! `setHost`. -/

@[simp] theorem State.setHost_cmd (x : HostAgent) : (s.setHost x).cmd = s.cmd := rfl
@[simp] theorem State.setHost_arg (x : HostAgent) : (s.setHost x).arg = s.arg := rfl
@[simp] theorem State.setHost_status (x : HostAgent) : (s.setHost x).status = s.status := rfl
@[simp] theorem State.setHost_timeout (x : HostAgent) : (s.setHost x).timeout = s.timeout := rfl
@[simp] theorem State.setHost_result (x : HostAgent) : (s.setHost x).result = s.result := rfl
@[simp] theorem State.setHost_buf (x : HostAgent) : (s.setHost x).buf = s.buf := rfl
@[simp] theorem State.setHost_ch (x : HostAgent) : (s.setHost x).ch = s.ch := rfl
@[simp] theorem State.setHost_sorted (x : HostAgent) : (s.setHost x).sorted = s.sorted := rfl
@[simp] theorem State.setHost_ctx (x : HostAgent) : (s.setHost x).ctx = s.ctx := rfl
@[simp] theorem State.setHost_nowMs (x : HostAgent) : (s.setHost x).nowMs = s.nowMs := rfl
@[simp] theorem State.setHost_target (x : HostAgent) : (s.setHost x).target = s.target := rfl
@[simp] theorem State.setHost_host (x : HostAgent) : (s.setHost x).host = x := rfl
@[simp] theorem State.setHost_agenda (x : HostAgent) : (s.setHost x).agenda = s.agenda := rfl
@[simp] theorem State.setHost_rounds (x : HostAgent) : (s.setHost x).rounds = s.rounds := rfl
@[simp] theorem State.setHost_spent (x : HostAgent) : (s.setHost x).spent = s.spent := rfl
@[simp] theorem State.setHost_params (x : HostAgent) : (s.setHost x).params = s.params := rfl

/-! `setAgenda`. -/

@[simp] theorem State.setAgenda_cmd (x : List Event) : (s.setAgenda x).cmd = s.cmd := rfl
@[simp] theorem State.setAgenda_arg (x : List Event) : (s.setAgenda x).arg = s.arg := rfl
@[simp] theorem State.setAgenda_status (x : List Event) : (s.setAgenda x).status = s.status := rfl
@[simp] theorem State.setAgenda_timeout (x : List Event) : (s.setAgenda x).timeout = s.timeout := rfl
@[simp] theorem State.setAgenda_result (x : List Event) : (s.setAgenda x).result = s.result := rfl
@[simp] theorem State.setAgenda_buf (x : List Event) : (s.setAgenda x).buf = s.buf := rfl
@[simp] theorem State.setAgenda_ch (x : List Event) : (s.setAgenda x).ch = s.ch := rfl
@[simp] theorem State.setAgenda_sorted (x : List Event) : (s.setAgenda x).sorted = s.sorted := rfl
@[simp] theorem State.setAgenda_ctx (x : List Event) : (s.setAgenda x).ctx = s.ctx := rfl
@[simp] theorem State.setAgenda_nowMs (x : List Event) : (s.setAgenda x).nowMs = s.nowMs := rfl
@[simp] theorem State.setAgenda_target (x : List Event) : (s.setAgenda x).target = s.target := rfl
@[simp] theorem State.setAgenda_host (x : List Event) : (s.setAgenda x).host = s.host := rfl
@[simp] theorem State.setAgenda_agenda (x : List Event) : (s.setAgenda x).agenda = x := rfl
@[simp] theorem State.setAgenda_rounds (x : List Event) : (s.setAgenda x).rounds = s.rounds := rfl
@[simp] theorem State.setAgenda_spent (x : List Event) : (s.setAgenda x).spent = s.spent := rfl
@[simp] theorem State.setAgenda_params (x : List Event) : (s.setAgenda x).params = s.params := rfl

/-! `setRounds`. -/

@[simp] theorem State.setRounds_cmd (x : Nat) : (s.setRounds x).cmd = s.cmd := rfl
@[simp] theorem State.setRounds_arg (x : Nat) : (s.setRounds x).arg = s.arg := rfl
@[simp] theorem State.setRounds_status (x : Nat) : (s.setRounds x).status = s.status := rfl
@[simp] theorem State.setRounds_timeout (x : Nat) : (s.setRounds x).timeout = s.timeout := rfl
@[simp] theorem State.setRounds_result (x : Nat) : (s.setRounds x).result = s.result := rfl
@[simp] theorem State.setRounds_buf (x : Nat) : (s.setRounds x).buf = s.buf := rfl
@[simp] theorem State.setRounds_ch (x : Nat) : (s.setRounds x).ch = s.ch := rfl
@[simp] theorem State.setRounds_sorted (x : Nat) : (s.setRounds x).sorted = s.sorted := rfl
@[simp] theorem State.setRounds_ctx (x : Nat) : (s.setRounds x).ctx = s.ctx := rfl
@[simp] theorem State.setRounds_nowMs (x : Nat) : (s.setRounds x).nowMs = s.nowMs := rfl
@[simp] theorem State.setRounds_target (x : Nat) : (s.setRounds x).target = s.target := rfl
@[simp] theorem State.setRounds_host (x : Nat) : (s.setRounds x).host = s.host := rfl
@[simp] theorem State.setRounds_agenda (x : Nat) : (s.setRounds x).agenda = s.agenda := rfl
@[simp] theorem State.setRounds_rounds (x : Nat) : (s.setRounds x).rounds = x := rfl
@[simp] theorem State.setRounds_spent (x : Nat) : (s.setRounds x).spent = s.spent := rfl
@[simp] theorem State.setRounds_params (x : Nat) : (s.setRounds x).params = s.params := rfl

/-! `setSpent`. -/

@[simp] theorem State.setSpent_cmd (x : Nat) : (s.setSpent x).cmd = s.cmd := rfl
@[simp] theorem State.setSpent_arg (x : Nat) : (s.setSpent x).arg = s.arg := rfl
@[simp] theorem State.setSpent_status (x : Nat) : (s.setSpent x).status = s.status := rfl
@[simp] theorem State.setSpent_timeout (x : Nat) : (s.setSpent x).timeout = s.timeout := rfl
@[simp] theorem State.setSpent_result (x : Nat) : (s.setSpent x).result = s.result := rfl
@[simp] theorem State.setSpent_buf (x : Nat) : (s.setSpent x).buf = s.buf := rfl
@[simp] theorem State.setSpent_ch (x : Nat) : (s.setSpent x).ch = s.ch := rfl
@[simp] theorem State.setSpent_sorted (x : Nat) : (s.setSpent x).sorted = s.sorted := rfl
@[simp] theorem State.setSpent_ctx (x : Nat) : (s.setSpent x).ctx = s.ctx := rfl
@[simp] theorem State.setSpent_nowMs (x : Nat) : (s.setSpent x).nowMs = s.nowMs := rfl
@[simp] theorem State.setSpent_target (x : Nat) : (s.setSpent x).target = s.target := rfl
@[simp] theorem State.setSpent_host (x : Nat) : (s.setSpent x).host = s.host := rfl
@[simp] theorem State.setSpent_agenda (x : Nat) : (s.setSpent x).agenda = s.agenda := rfl
@[simp] theorem State.setSpent_rounds (x : Nat) : (s.setSpent x).rounds = s.rounds := rfl
@[simp] theorem State.setSpent_spent (x : Nat) : (s.setSpent x).spent = x := rfl
@[simp] theorem State.setSpent_params (x : Nat) : (s.setSpent x).params = s.params := rfl

/-! `Status.setBank`. -/

@[simp] theorem Status.setBank_busy (x : BitVec 2) : (t.setBank x).busy = t.busy := rfl
@[simp] theorem Status.setBank_done (x : BitVec 2) : (t.setBank x).done = t.done := rfl
@[simp] theorem Status.setBank_ok (x : BitVec 2) : (t.setBank x).ok = t.ok := rfl
@[simp] theorem Status.setBank_chValid (x : BitVec 2) : (t.setBank x).chValid = t.chValid := rfl
@[simp] theorem Status.setBank_sortedValid (x : BitVec 2) : (t.setBank x).sortedValid = t.sortedValid := rfl
@[simp] theorem Status.setBank_werr (x : BitVec 2) : (t.setBank x).werr = t.werr := rfl
@[simp] theorem Status.setBank_bank (x : BitVec 2) : (t.setBank x).bank = x := rfl
@[simp] theorem Status.setBank_err (x : BitVec 2) : (t.setBank x).err = t.err := rfl

/-! `Status.setChValid`. -/

@[simp] theorem Status.setChValid_busy (x : Bool) : (t.setChValid x).busy = t.busy := rfl
@[simp] theorem Status.setChValid_done (x : Bool) : (t.setChValid x).done = t.done := rfl
@[simp] theorem Status.setChValid_ok (x : Bool) : (t.setChValid x).ok = t.ok := rfl
@[simp] theorem Status.setChValid_chValid (x : Bool) : (t.setChValid x).chValid = x := rfl
@[simp] theorem Status.setChValid_sortedValid (x : Bool) : (t.setChValid x).sortedValid = t.sortedValid := rfl
@[simp] theorem Status.setChValid_werr (x : Bool) : (t.setChValid x).werr = t.werr := rfl
@[simp] theorem Status.setChValid_bank (x : Bool) : (t.setChValid x).bank = t.bank := rfl
@[simp] theorem Status.setChValid_err (x : Bool) : (t.setChValid x).err = t.err := rfl

/-! `Status.setSortedValid`. -/

@[simp] theorem Status.setSortedValid_busy (x : Bool) : (t.setSortedValid x).busy = t.busy := rfl
@[simp] theorem Status.setSortedValid_done (x : Bool) : (t.setSortedValid x).done = t.done := rfl
@[simp] theorem Status.setSortedValid_ok (x : Bool) : (t.setSortedValid x).ok = t.ok := rfl
@[simp] theorem Status.setSortedValid_chValid (x : Bool) : (t.setSortedValid x).chValid = t.chValid := rfl
@[simp] theorem Status.setSortedValid_sortedValid (x : Bool) : (t.setSortedValid x).sortedValid = x := rfl
@[simp] theorem Status.setSortedValid_werr (x : Bool) : (t.setSortedValid x).werr = t.werr := rfl
@[simp] theorem Status.setSortedValid_bank (x : Bool) : (t.setSortedValid x).bank = t.bank := rfl
@[simp] theorem Status.setSortedValid_err (x : Bool) : (t.setSortedValid x).err = t.err := rfl

/-! `Status.setWerr`. -/

@[simp] theorem Status.setWerr_busy (x : Bool) : (t.setWerr x).busy = t.busy := rfl
@[simp] theorem Status.setWerr_done (x : Bool) : (t.setWerr x).done = t.done := rfl
@[simp] theorem Status.setWerr_ok (x : Bool) : (t.setWerr x).ok = t.ok := rfl
@[simp] theorem Status.setWerr_chValid (x : Bool) : (t.setWerr x).chValid = t.chValid := rfl
@[simp] theorem Status.setWerr_sortedValid (x : Bool) : (t.setWerr x).sortedValid = t.sortedValid := rfl
@[simp] theorem Status.setWerr_werr (x : Bool) : (t.setWerr x).werr = x := rfl
@[simp] theorem Status.setWerr_bank (x : Bool) : (t.setWerr x).bank = t.bank := rfl
@[simp] theorem Status.setWerr_err (x : Bool) : (t.setWerr x).err = t.err := rfl

/-! `Status.issued`, `Status.completed`, `Status.readingStarted`. -/

@[simp] theorem Status.issued_busy : t.issued.busy = true := rfl
@[simp] theorem Status.issued_done : t.issued.done = false := rfl
@[simp] theorem Status.issued_ok : t.issued.ok = false := rfl
@[simp] theorem Status.issued_chValid : t.issued.chValid = t.chValid := rfl
@[simp] theorem Status.issued_sortedValid : t.issued.sortedValid = t.sortedValid := rfl
@[simp] theorem Status.issued_werr : t.issued.werr = false := rfl
@[simp] theorem Status.issued_bank : t.issued.bank = t.bank := rfl
@[simp] theorem Status.issued_err : t.issued.err = 0 := rfl
@[simp] theorem Status.completed_busy (ok : Bool) (code : BitVec 4) : (t.completed ok code).busy = false := rfl
@[simp] theorem Status.completed_done (ok : Bool) (code : BitVec 4) : (t.completed ok code).done = true := rfl
@[simp] theorem Status.completed_ok (ok : Bool) (code : BitVec 4) : (t.completed ok code).ok = ok := rfl
@[simp] theorem Status.completed_chValid (ok : Bool) (code : BitVec 4) : (t.completed ok code).chValid = t.chValid := rfl
@[simp] theorem Status.completed_sortedValid (ok : Bool) (code : BitVec 4) : (t.completed ok code).sortedValid = t.sortedValid := rfl
@[simp] theorem Status.completed_werr (ok : Bool) (code : BitVec 4) : (t.completed ok code).werr = t.werr := rfl
@[simp] theorem Status.completed_bank (ok : Bool) (code : BitVec 4) : (t.completed ok code).bank = t.bank := rfl
@[simp] theorem Status.completed_err (ok : Bool) (code : BitVec 4) : (t.completed ok code).err = code := rfl
@[simp] theorem Status.readingStarted_busy : t.readingStarted.busy = t.busy := rfl
@[simp] theorem Status.readingStarted_done : t.readingStarted.done = t.done := rfl
@[simp] theorem Status.readingStarted_ok : t.readingStarted.ok = t.ok := rfl
@[simp] theorem Status.readingStarted_chValid : t.readingStarted.chValid = false := rfl
@[simp] theorem Status.readingStarted_sortedValid : t.readingStarted.sortedValid = false := rfl
@[simp] theorem Status.readingStarted_werr : t.readingStarted.werr = t.werr := rfl
@[simp] theorem Status.readingStarted_bank : t.readingStarted.bank = t.bank := rfl
@[simp] theorem Status.readingStarted_err : t.readingStarted.err = t.err := rfl

/-! `Result`. -/

@[simp] theorem Result.setIdValue_idValue (x : Byte) : (r.setIdValue x).idValue = x := rfl
@[simp] theorem Result.setIdValue_rcount (x : Byte) : (r.setIdValue x).rcount = r.rcount := rfl
@[simp] theorem Result.setIdValue_txcount (x : Byte) : (r.setIdValue x).txcount = r.txcount := rfl
@[simp] theorem Result.setRcount_idValue (x : Byte) : (r.setRcount x).idValue = r.idValue := rfl
@[simp] theorem Result.setRcount_rcount (x : Byte) : (r.setRcount x).rcount = x := rfl
@[simp] theorem Result.setRcount_txcount (x : Byte) : (r.setRcount x).txcount = r.txcount := rfl
@[simp] theorem Result.setTxcount_idValue (x : BitVec 16) : (r.setTxcount x).idValue = r.idValue := rfl
@[simp] theorem Result.setTxcount_rcount (x : BitVec 16) : (r.setTxcount x).rcount = r.rcount := rfl
@[simp] theorem Result.setTxcount_txcount (x : BitVec 16) : (r.setTxcount x).txcount = x := rfl
@[simp] theorem Result.issued_idValue : r.issued.idValue = r.idValue := rfl
@[simp] theorem Result.issued_rcount : r.issued.rcount = 0 := rfl
@[simp] theorem Result.issued_txcount : r.issued.txcount = 0 := rfl

/-! `Target`. -/

@[simp] theorem Target.setRegs_kind (x : Memory) : (g.setRegs x).kind = g.kind := rfl
@[simp] theorem Target.setRegs_regs (x : Memory) : (g.setRegs x).regs = x := rfl
@[simp] theorem Target.setRegs_regs1 (x : Memory) : (g.setRegs x).regs1 = g.regs1 := rfl
@[simp] theorem Target.setRegs_ptr (x : Memory) : (g.setRegs x).ptr = g.ptr := rfl
@[simp] theorem Target.setRegs_script (x : Memory) : (g.setRegs x).script = g.script := rfl
@[simp] theorem Target.setRegs_draws (x : Memory) : (g.setRegs x).draws = g.draws := rfl
@[simp] theorem Target.setRegs_powerUps (x : Memory) : (g.setRegs x).powerUps = g.powerUps := rfl
@[simp] theorem Target.setRegs1_kind (x : Memory) : (g.setRegs1 x).kind = g.kind := rfl
@[simp] theorem Target.setRegs1_regs (x : Memory) : (g.setRegs1 x).regs = g.regs := rfl
@[simp] theorem Target.setRegs1_regs1 (x : Memory) : (g.setRegs1 x).regs1 = x := rfl
@[simp] theorem Target.setRegs1_ptr (x : Memory) : (g.setRegs1 x).ptr = g.ptr := rfl
@[simp] theorem Target.setRegs1_script (x : Memory) : (g.setRegs1 x).script = g.script := rfl
@[simp] theorem Target.setRegs1_draws (x : Memory) : (g.setRegs1 x).draws = g.draws := rfl
@[simp] theorem Target.setRegs1_powerUps (x : Memory) : (g.setRegs1 x).powerUps = g.powerUps := rfl
@[simp] theorem Target.setPtr_kind (x : BitVec 8) : (g.setPtr x).kind = g.kind := rfl
@[simp] theorem Target.setPtr_regs (x : BitVec 8) : (g.setPtr x).regs = g.regs := rfl
@[simp] theorem Target.setPtr_regs1 (x : BitVec 8) : (g.setPtr x).regs1 = g.regs1 := rfl
@[simp] theorem Target.setPtr_ptr (x : BitVec 8) : (g.setPtr x).ptr = x := rfl
@[simp] theorem Target.setPtr_script (x : BitVec 8) : (g.setPtr x).script = g.script := rfl
@[simp] theorem Target.setPtr_draws (x : BitVec 8) : (g.setPtr x).draws = g.draws := rfl
@[simp] theorem Target.setPtr_powerUps (x : BitVec 8) : (g.setPtr x).powerUps = g.powerUps := rfl
@[simp] theorem Target.setScript_kind (x : List (Option Draw)) : (g.setScript x).kind = g.kind := rfl
@[simp] theorem Target.setScript_regs (x : List (Option Draw)) : (g.setScript x).regs = g.regs := rfl
@[simp] theorem Target.setScript_regs1 (x : List (Option Draw)) : (g.setScript x).regs1 = g.regs1 := rfl
@[simp] theorem Target.setScript_ptr (x : List (Option Draw)) : (g.setScript x).ptr = g.ptr := rfl
@[simp] theorem Target.setScript_script (x : List (Option Draw)) : (g.setScript x).script = x := rfl
@[simp] theorem Target.setScript_draws (x : List (Option Draw)) : (g.setScript x).draws = g.draws := rfl
@[simp] theorem Target.setScript_powerUps (x : List (Option Draw)) : (g.setScript x).powerUps = g.powerUps := rfl
@[simp] theorem Target.setDraws_kind (x : Nat) : (g.setDraws x).kind = g.kind := rfl
@[simp] theorem Target.setDraws_regs (x : Nat) : (g.setDraws x).regs = g.regs := rfl
@[simp] theorem Target.setDraws_regs1 (x : Nat) : (g.setDraws x).regs1 = g.regs1 := rfl
@[simp] theorem Target.setDraws_ptr (x : Nat) : (g.setDraws x).ptr = g.ptr := rfl
@[simp] theorem Target.setDraws_script (x : Nat) : (g.setDraws x).script = g.script := rfl
@[simp] theorem Target.setDraws_draws (x : Nat) : (g.setDraws x).draws = x := rfl
@[simp] theorem Target.setDraws_powerUps (x : Nat) : (g.setDraws x).powerUps = g.powerUps := rfl
@[simp] theorem Target.setPowerUps_kind (x : Nat) : (g.setPowerUps x).kind = g.kind := rfl
@[simp] theorem Target.setPowerUps_regs (x : Nat) : (g.setPowerUps x).regs = g.regs := rfl
@[simp] theorem Target.setPowerUps_regs1 (x : Nat) : (g.setPowerUps x).regs1 = g.regs1 := rfl
@[simp] theorem Target.setPowerUps_ptr (x : Nat) : (g.setPowerUps x).ptr = g.ptr := rfl
@[simp] theorem Target.setPowerUps_script (x : Nat) : (g.setPowerUps x).script = g.script := rfl
@[simp] theorem Target.setPowerUps_draws (x : Nat) : (g.setPowerUps x).draws = g.draws := rfl
@[simp] theorem Target.setPowerUps_powerUps (x : Nat) : (g.setPowerUps x).powerUps = x := rfl

/-! `Target.point`. -/

@[simp] theorem Target.point_kind (p : Params) (a : BitVec 7) (b : BitVec 8) (m : Nat) : (g.point p a b m).kind = g.kind := rfl
@[simp] theorem Target.point_regs (p : Params) (a : BitVec 7) (b : BitVec 8) (m : Nat) : (g.point p a b m).regs = g.regs := rfl
@[simp] theorem Target.point_regs1 (p : Params) (a : BitVec 7) (b : BitVec 8) (m : Nat) : (g.point p a b m).regs1 = g.regs1 := rfl
@[simp] theorem Target.point_script (p : Params) (a : BitVec 7) (b : BitVec 8) (m : Nat) : (g.point p a b m).script = g.script := rfl
@[simp] theorem Target.point_draws (p : Params) (a : BitVec 7) (b : BitVec 8) (m : Nat) : (g.point p a b m).draws = g.draws := rfl
@[simp] theorem Target.point_powerUps (p : Params) (a : BitVec 7) (b : BitVec 8) (m : Nat) : (g.point p a b m).powerUps = g.powerUps := rfl

/-! `issue`. -/

@[simp] theorem issue_cmd (w : Word) : (issue w s).cmd = w := rfl
@[simp] theorem issue_arg (w : Word) : (issue w s).arg = s.arg := rfl
@[simp] theorem issue_status (w : Word) : (issue w s).status = s.status.issued := rfl
@[simp] theorem issue_timeout (w : Word) : (issue w s).timeout = s.timeout := rfl
@[simp] theorem issue_result (w : Word) : (issue w s).result = s.result.issued := rfl
@[simp] theorem issue_buf (w : Word) : (issue w s).buf = s.buf := rfl
@[simp] theorem issue_ch (w : Word) : (issue w s).ch = s.ch := rfl
@[simp] theorem issue_sorted (w : Word) : (issue w s).sorted = s.sorted := rfl
@[simp] theorem issue_ctx (w : Word) : (issue w s).ctx = some Ctx.fresh := rfl
@[simp] theorem issue_nowMs (w : Word) : (issue w s).nowMs = s.nowMs := rfl
@[simp] theorem issue_target (w : Word) : (issue w s).target = s.target := rfl
@[simp] theorem issue_host (w : Word) : (issue w s).host = s.host := rfl
@[simp] theorem issue_agenda (w : Word) : (issue w s).agenda = s.agenda := rfl
@[simp] theorem issue_rounds (w : Word) : (issue w s).rounds = s.rounds := rfl
@[simp] theorem issue_spent (w : Word) : (issue w s).spent = s.spent := rfl
@[simp] theorem issue_params (w : Word) : (issue w s).params = s.params := rfl

/-! `complete`. -/

@[simp] theorem complete_cmd (ok : Bool) (code : BitVec 4) : (complete ok code s).cmd = s.cmd := rfl
@[simp] theorem complete_arg (ok : Bool) (code : BitVec 4) : (complete ok code s).arg = s.arg := rfl
@[simp] theorem complete_status (ok : Bool) (code : BitVec 4) : (complete ok code s).status = s.status.completed ok code := rfl
@[simp] theorem complete_timeout (ok : Bool) (code : BitVec 4) : (complete ok code s).timeout = s.timeout := rfl
@[simp] theorem complete_result (ok : Bool) (code : BitVec 4) : (complete ok code s).result = s.result := rfl
@[simp] theorem complete_buf (ok : Bool) (code : BitVec 4) : (complete ok code s).buf = s.buf := rfl
@[simp] theorem complete_ch (ok : Bool) (code : BitVec 4) : (complete ok code s).ch = s.ch := rfl
@[simp] theorem complete_sorted (ok : Bool) (code : BitVec 4) : (complete ok code s).sorted = s.sorted := rfl
@[simp] theorem complete_ctx (ok : Bool) (code : BitVec 4) : (complete ok code s).ctx = none := rfl
@[simp] theorem complete_nowMs (ok : Bool) (code : BitVec 4) : (complete ok code s).nowMs = s.nowMs := rfl
@[simp] theorem complete_target (ok : Bool) (code : BitVec 4) : (complete ok code s).target = s.target := rfl
@[simp] theorem complete_host (ok : Bool) (code : BitVec 4) : (complete ok code s).host = s.host := rfl
@[simp] theorem complete_agenda (ok : Bool) (code : BitVec 4) : (complete ok code s).agenda = s.agenda := rfl
@[simp] theorem complete_rounds (ok : Bool) (code : BitVec 4) : (complete ok code s).rounds = s.rounds := rfl
@[simp] theorem complete_spent (ok : Bool) (code : BitVec 4) : (complete ok code s).spent = s.spent := rfl
@[simp] theorem complete_params (ok : Bool) (code : BitVec 4) : (complete ok code s).params = s.params := rfl

/-! `fail`. -/

@[simp] theorem fail_cmd (code : ErrCode) : (fail code s).cmd = s.cmd := rfl
@[simp] theorem fail_arg (code : ErrCode) : (fail code s).arg = s.arg := rfl
@[simp] theorem fail_status (code : ErrCode) : (fail code s).status = s.status.completed false code.code := rfl
@[simp] theorem fail_timeout (code : ErrCode) : (fail code s).timeout = s.timeout := rfl
@[simp] theorem fail_result (code : ErrCode) : (fail code s).result = s.result := rfl
@[simp] theorem fail_buf (code : ErrCode) : (fail code s).buf = s.buf := rfl
@[simp] theorem fail_ch (code : ErrCode) : (fail code s).ch = s.ch := rfl
@[simp] theorem fail_sorted (code : ErrCode) : (fail code s).sorted = s.sorted := rfl
@[simp] theorem fail_ctx (code : ErrCode) : (fail code s).ctx = none := rfl
@[simp] theorem fail_nowMs (code : ErrCode) : (fail code s).nowMs = s.nowMs := rfl
@[simp] theorem fail_target (code : ErrCode) : (fail code s).target = s.target := rfl
@[simp] theorem fail_host (code : ErrCode) : (fail code s).host = s.host := rfl
@[simp] theorem fail_agenda (code : ErrCode) : (fail code s).agenda = s.agenda := rfl
@[simp] theorem fail_rounds (code : ErrCode) : (fail code s).rounds = s.rounds := rfl
@[simp] theorem fail_spent (code : ErrCode) : (fail code s).spent = s.spent := rfl
@[simp] theorem fail_params (code : ErrCode) : (fail code s).params = s.params := rfl

/-! `succeed`. -/

@[simp] theorem succeed_cmd : (succeed s).cmd = s.cmd := rfl
@[simp] theorem succeed_arg : (succeed s).arg = s.arg := rfl
@[simp] theorem succeed_status : (succeed s).status = s.status.completed true 0 := rfl
@[simp] theorem succeed_timeout : (succeed s).timeout = s.timeout := rfl
@[simp] theorem succeed_result : (succeed s).result = s.result := rfl
@[simp] theorem succeed_buf : (succeed s).buf = s.buf := rfl
@[simp] theorem succeed_ch : (succeed s).ch = s.ch := rfl
@[simp] theorem succeed_sorted : (succeed s).sorted = s.sorted := rfl
@[simp] theorem succeed_ctx : (succeed s).ctx = none := rfl
@[simp] theorem succeed_nowMs : (succeed s).nowMs = s.nowMs := rfl
@[simp] theorem succeed_target : (succeed s).target = s.target := rfl
@[simp] theorem succeed_host : (succeed s).host = s.host := rfl
@[simp] theorem succeed_agenda : (succeed s).agenda = s.agenda := rfl
@[simp] theorem succeed_rounds : (succeed s).rounds = s.rounds := rfl
@[simp] theorem succeed_spent : (succeed s).spent = s.spent := rfl
@[simp] theorem succeed_params : (succeed s).params = s.params := rfl

/-! `runIllegal`. -/

@[simp] theorem runIllegal_cmd : (runIllegal s).cmd = s.cmd := rfl
@[simp] theorem runIllegal_arg : (runIllegal s).arg = s.arg := rfl
@[simp] theorem runIllegal_status : (runIllegal s).status = s.status.completed false 4 := rfl
@[simp] theorem runIllegal_timeout : (runIllegal s).timeout = s.timeout := rfl
@[simp] theorem runIllegal_result : (runIllegal s).result = s.result := rfl
@[simp] theorem runIllegal_buf : (runIllegal s).buf = s.buf := rfl
@[simp] theorem runIllegal_ch : (runIllegal s).ch = s.ch := rfl
@[simp] theorem runIllegal_sorted : (runIllegal s).sorted = s.sorted := rfl
@[simp] theorem runIllegal_ctx : (runIllegal s).ctx = none := rfl
@[simp] theorem runIllegal_nowMs : (runIllegal s).nowMs = s.nowMs := rfl
@[simp] theorem runIllegal_target : (runIllegal s).target = s.target := rfl
@[simp] theorem runIllegal_host : (runIllegal s).host = s.host := rfl
@[simp] theorem runIllegal_agenda : (runIllegal s).agenda = s.agenda := rfl
@[simp] theorem runIllegal_rounds : (runIllegal s).rounds = s.rounds := rfl
@[simp] theorem runIllegal_spent : (runIllegal s).spent = s.spent := rfl
@[simp] theorem runIllegal_params : (runIllegal s).params = s.params := rfl

/-! `resume`. -/

@[simp] theorem resume_cmd (c : Ctx) : (resume c s).cmd = s.cmd := rfl
@[simp] theorem resume_arg (c : Ctx) : (resume c s).arg = s.arg := rfl
@[simp] theorem resume_status (c : Ctx) : (resume c s).status = s.status := rfl
@[simp] theorem resume_timeout (c : Ctx) : (resume c s).timeout = s.timeout := rfl
@[simp] theorem resume_result (c : Ctx) : (resume c s).result = s.result := rfl
@[simp] theorem resume_buf (c : Ctx) : (resume c s).buf = s.buf := rfl
@[simp] theorem resume_ch (c : Ctx) : (resume c s).ch = s.ch := rfl
@[simp] theorem resume_sorted (c : Ctx) : (resume c s).sorted = s.sorted := rfl
@[simp] theorem resume_ctx (c : Ctx) : (resume c s).ctx = some c := rfl
@[simp] theorem resume_nowMs (c : Ctx) : (resume c s).nowMs = s.nowMs := rfl
@[simp] theorem resume_target (c : Ctx) : (resume c s).target = s.target := rfl
@[simp] theorem resume_host (c : Ctx) : (resume c s).host = s.host := rfl
@[simp] theorem resume_agenda (c : Ctx) : (resume c s).agenda = s.agenda := rfl
@[simp] theorem resume_rounds (c : Ctx) : (resume c s).rounds = s.rounds := rfl
@[simp] theorem resume_spent (c : Ctx) : (resume c s).spent = s.spent := rfl
@[simp] theorem resume_params (c : Ctx) : (resume c s).params = s.params := rfl

/-! `setMirror`. -/

@[simp] theorem setMirror_cmd (m : BitVec 2) : (setMirror m s).cmd = s.cmd := rfl
@[simp] theorem setMirror_arg (m : BitVec 2) : (setMirror m s).arg = s.arg := rfl
@[simp] theorem setMirror_status (m : BitVec 2) : (setMirror m s).status = s.status.setBank m := rfl
@[simp] theorem setMirror_timeout (m : BitVec 2) : (setMirror m s).timeout = s.timeout := rfl
@[simp] theorem setMirror_result (m : BitVec 2) : (setMirror m s).result = s.result := rfl
@[simp] theorem setMirror_buf (m : BitVec 2) : (setMirror m s).buf = s.buf := rfl
@[simp] theorem setMirror_ch (m : BitVec 2) : (setMirror m s).ch = s.ch := rfl
@[simp] theorem setMirror_sorted (m : BitVec 2) : (setMirror m s).sorted = s.sorted := rfl
@[simp] theorem setMirror_ctx (m : BitVec 2) : (setMirror m s).ctx = s.ctx := rfl
@[simp] theorem setMirror_nowMs (m : BitVec 2) : (setMirror m s).nowMs = s.nowMs := rfl
@[simp] theorem setMirror_target (m : BitVec 2) : (setMirror m s).target = s.target := rfl
@[simp] theorem setMirror_host (m : BitVec 2) : (setMirror m s).host = s.host := rfl
@[simp] theorem setMirror_agenda (m : BitVec 2) : (setMirror m s).agenda = s.agenda := rfl
@[simp] theorem setMirror_rounds (m : BitVec 2) : (setMirror m s).rounds = s.rounds := rfl
@[simp] theorem setMirror_spent (m : BitVec 2) : (setMirror m s).spent = s.spent := rfl
@[simp] theorem setMirror_params (m : BitVec 2) : (setMirror m s).params = s.params := rfl

/-! `countTransaction`. -/

@[simp] theorem countTransaction_cmd : (countTransaction s).cmd = s.cmd := rfl
@[simp] theorem countTransaction_arg : (countTransaction s).arg = s.arg := rfl
@[simp] theorem countTransaction_status : (countTransaction s).status = s.status := rfl
@[simp] theorem countTransaction_timeout : (countTransaction s).timeout = s.timeout := rfl
@[simp] theorem countTransaction_result : (countTransaction s).result = s.result.setTxcount (countUp s.result.txcount) := rfl
@[simp] theorem countTransaction_buf : (countTransaction s).buf = s.buf := rfl
@[simp] theorem countTransaction_ch : (countTransaction s).ch = s.ch := rfl
@[simp] theorem countTransaction_sorted : (countTransaction s).sorted = s.sorted := rfl
@[simp] theorem countTransaction_ctx : (countTransaction s).ctx = s.ctx := rfl
@[simp] theorem countTransaction_nowMs : (countTransaction s).nowMs = s.nowMs := rfl
@[simp] theorem countTransaction_target : (countTransaction s).target = s.target := rfl
@[simp] theorem countTransaction_host : (countTransaction s).host = s.host := rfl
@[simp] theorem countTransaction_agenda : (countTransaction s).agenda = s.agenda := rfl
@[simp] theorem countTransaction_rounds : (countTransaction s).rounds = s.rounds := rfl
@[simp] theorem countTransaction_spent : (countTransaction s).spent = s.spent := rfl
@[simp] theorem countTransaction_params : (countTransaction s).params = s.params := rfl

/-! `setRcount`. -/

@[simp] theorem setRcount_cmd (m : Nat) : (setRcount m s).cmd = s.cmd := rfl
@[simp] theorem setRcount_arg (m : Nat) : (setRcount m s).arg = s.arg := rfl
@[simp] theorem setRcount_status (m : Nat) : (setRcount m s).status = s.status := rfl
@[simp] theorem setRcount_timeout (m : Nat) : (setRcount m s).timeout = s.timeout := rfl
@[simp] theorem setRcount_result (m : Nat) : (setRcount m s).result = s.result.setRcount (BitVec.ofNat 8 m) := rfl
@[simp] theorem setRcount_buf (m : Nat) : (setRcount m s).buf = s.buf := rfl
@[simp] theorem setRcount_ch (m : Nat) : (setRcount m s).ch = s.ch := rfl
@[simp] theorem setRcount_sorted (m : Nat) : (setRcount m s).sorted = s.sorted := rfl
@[simp] theorem setRcount_ctx (m : Nat) : (setRcount m s).ctx = s.ctx := rfl
@[simp] theorem setRcount_nowMs (m : Nat) : (setRcount m s).nowMs = s.nowMs := rfl
@[simp] theorem setRcount_target (m : Nat) : (setRcount m s).target = s.target := rfl
@[simp] theorem setRcount_host (m : Nat) : (setRcount m s).host = s.host := rfl
@[simp] theorem setRcount_agenda (m : Nat) : (setRcount m s).agenda = s.agenda := rfl
@[simp] theorem setRcount_rounds (m : Nat) : (setRcount m s).rounds = s.rounds := rfl
@[simp] theorem setRcount_spent (m : Nat) : (setRcount m s).spent = s.spent := rfl
@[simp] theorem setRcount_params (m : Nat) : (setRcount m s).params = s.params := rfl

/-! `startReading`. -/

@[simp] theorem startReading_cmd : (startReading s).cmd = s.cmd := rfl
@[simp] theorem startReading_arg : (startReading s).arg = s.arg := rfl
@[simp] theorem startReading_status : (startReading s).status = s.status.readingStarted := rfl
@[simp] theorem startReading_timeout : (startReading s).timeout = s.timeout := rfl
@[simp] theorem startReading_result : (startReading s).result = s.result := rfl
@[simp] theorem startReading_buf : (startReading s).buf = s.buf := rfl
@[simp] theorem startReading_ch : (startReading s).ch = s.ch := rfl
@[simp] theorem startReading_sorted : (startReading s).sorted = s.sorted := rfl
@[simp] theorem startReading_ctx : (startReading s).ctx = s.ctx := rfl
@[simp] theorem startReading_nowMs : (startReading s).nowMs = s.nowMs := rfl
@[simp] theorem startReading_target : (startReading s).target = s.target := rfl
@[simp] theorem startReading_host : (startReading s).host = s.host := rfl
@[simp] theorem startReading_agenda : (startReading s).agenda = s.agenda := rfl
@[simp] theorem startReading_rounds : (startReading s).rounds = s.rounds := rfl
@[simp] theorem startReading_spent : (startReading s).spent = s.spent := rfl
@[simp] theorem startReading_params : (startReading s).params = s.params := rfl

/-! `validateChannels`. -/

@[simp] theorem validateChannels_cmd : (validateChannels s).cmd = s.cmd := rfl
@[simp] theorem validateChannels_arg : (validateChannels s).arg = s.arg := rfl
@[simp] theorem validateChannels_status : (validateChannels s).status = s.status.setChValid true := rfl
@[simp] theorem validateChannels_timeout : (validateChannels s).timeout = s.timeout := rfl
@[simp] theorem validateChannels_result : (validateChannels s).result = s.result := rfl
@[simp] theorem validateChannels_buf : (validateChannels s).buf = s.buf := rfl
@[simp] theorem validateChannels_ch : (validateChannels s).ch = s.ch := rfl
@[simp] theorem validateChannels_sorted : (validateChannels s).sorted = s.sorted := rfl
@[simp] theorem validateChannels_ctx : (validateChannels s).ctx = s.ctx := rfl
@[simp] theorem validateChannels_nowMs : (validateChannels s).nowMs = s.nowMs := rfl
@[simp] theorem validateChannels_target : (validateChannels s).target = s.target := rfl
@[simp] theorem validateChannels_host : (validateChannels s).host = s.host := rfl
@[simp] theorem validateChannels_agenda : (validateChannels s).agenda = s.agenda := rfl
@[simp] theorem validateChannels_rounds : (validateChannels s).rounds = s.rounds := rfl
@[simp] theorem validateChannels_spent : (validateChannels s).spent = s.spent := rfl
@[simp] theorem validateChannels_params : (validateChannels s).params = s.params := rfl

/-! `sortChannels`. -/

@[simp] theorem sortChannels_cmd : (sortChannels s).cmd = s.cmd := rfl
@[simp] theorem sortChannels_arg : (sortChannels s).arg = s.arg := rfl
@[simp] theorem sortChannels_status : (sortChannels s).status = s.status.setSortedValid true := rfl
@[simp] theorem sortChannels_timeout : (sortChannels s).timeout = s.timeout := rfl
@[simp] theorem sortChannels_result : (sortChannels s).result = s.result := rfl
@[simp] theorem sortChannels_buf : (sortChannels s).buf = s.buf := rfl
@[simp] theorem sortChannels_ch : (sortChannels s).ch = s.ch := rfl
@[simp] theorem sortChannels_sorted : (sortChannels s).sorted = sortedView s.ch := rfl
@[simp] theorem sortChannels_ctx : (sortChannels s).ctx = s.ctx := rfl
@[simp] theorem sortChannels_nowMs : (sortChannels s).nowMs = s.nowMs := rfl
@[simp] theorem sortChannels_target : (sortChannels s).target = s.target := rfl
@[simp] theorem sortChannels_host : (sortChannels s).host = s.host := rfl
@[simp] theorem sortChannels_agenda : (sortChannels s).agenda = s.agenda := rfl
@[simp] theorem sortChannels_rounds : (sortChannels s).rounds = s.rounds := rfl
@[simp] theorem sortChannels_spent : (sortChannels s).spent = s.spent := rfl
@[simp] theorem sortChannels_params : (sortChannels s).params = s.params := rfl

/-! `returnWord`. -/

@[simp] theorem returnWord_cmd (v : Word) : (returnWord v s).cmd = s.cmd := rfl
@[simp] theorem returnWord_arg (v : Word) : (returnWord v s).arg = s.arg := rfl
@[simp] theorem returnWord_status (v : Word) : (returnWord v s).status = s.status := rfl
@[simp] theorem returnWord_timeout (v : Word) : (returnWord v s).timeout = s.timeout := rfl
@[simp] theorem returnWord_result (v : Word) : (returnWord v s).result = s.result := rfl
@[simp] theorem returnWord_buf (v : Word) : (returnWord v s).buf = s.buf := rfl
@[simp] theorem returnWord_ch (v : Word) : (returnWord v s).ch = s.ch := rfl
@[simp] theorem returnWord_sorted (v : Word) : (returnWord v s).sorted = s.sorted := rfl
@[simp] theorem returnWord_ctx (v : Word) : (returnWord v s).ctx = s.ctx := rfl
@[simp] theorem returnWord_nowMs (v : Word) : (returnWord v s).nowMs = s.nowMs := rfl
@[simp] theorem returnWord_target (v : Word) : (returnWord v s).target = s.target := rfl
@[simp] theorem returnWord_host (v : Word) : (returnWord v s).host = ⟨s.host.prog, v⟩ := rfl
@[simp] theorem returnWord_agenda (v : Word) : (returnWord v s).agenda = s.agenda := rfl
@[simp] theorem returnWord_rounds (v : Word) : (returnWord v s).rounds = s.rounds := rfl
@[simp] theorem returnWord_spent (v : Word) : (returnWord v s).spent = s.spent := rfl
@[simp] theorem returnWord_params (v : Word) : (returnWord v s).params = s.params := rfl

/-! `advanceHost`. -/

@[simp] theorem advanceHost_cmd : (advanceHost s).cmd = s.cmd := rfl
@[simp] theorem advanceHost_arg : (advanceHost s).arg = s.arg := rfl
@[simp] theorem advanceHost_status : (advanceHost s).status = s.status := rfl
@[simp] theorem advanceHost_timeout : (advanceHost s).timeout = s.timeout := rfl
@[simp] theorem advanceHost_result : (advanceHost s).result = s.result := rfl
@[simp] theorem advanceHost_buf : (advanceHost s).buf = s.buf := rfl
@[simp] theorem advanceHost_ch : (advanceHost s).ch = s.ch := rfl
@[simp] theorem advanceHost_sorted : (advanceHost s).sorted = s.sorted := rfl
@[simp] theorem advanceHost_ctx : (advanceHost s).ctx = s.ctx := rfl
@[simp] theorem advanceHost_nowMs : (advanceHost s).nowMs = s.nowMs := rfl
@[simp] theorem advanceHost_target : (advanceHost s).target = s.target := rfl
@[simp] theorem advanceHost_host : (advanceHost s).host = ⟨s.host.prog.tail, s.host.readData⟩ := rfl
@[simp] theorem advanceHost_agenda : (advanceHost s).agenda = s.agenda := rfl
@[simp] theorem advanceHost_rounds : (advanceHost s).rounds = s.rounds := rfl
@[simp] theorem advanceHost_spent : (advanceHost s).spent = s.spent := rfl
@[simp] theorem advanceHost_params : (advanceHost s).params = s.params := rfl

/-! `resetController`. -/

@[simp] theorem resetController_cmd : (resetController s).cmd = 0 := rfl
@[simp] theorem resetController_arg : (resetController s).arg = 0 := rfl
@[simp] theorem resetController_status : (resetController s).status = Status.reset := rfl
@[simp] theorem resetController_timeout : (resetController s).timeout = 0 := rfl
@[simp] theorem resetController_result : (resetController s).result = Result.reset := rfl
@[simp] theorem resetController_buf : (resetController s).buf = Vector.replicate 32 0 := rfl
@[simp] theorem resetController_ch : (resetController s).ch = Vector.replicate 18 0 := rfl
@[simp] theorem resetController_sorted : (resetController s).sorted = Vector.replicate 12 0 := rfl
@[simp] theorem resetController_ctx : (resetController s).ctx = none := rfl
@[simp] theorem resetController_nowMs : (resetController s).nowMs = s.nowMs := rfl
@[simp] theorem resetController_target : (resetController s).target = s.target := rfl
@[simp] theorem resetController_host : (resetController s).host = s.host := rfl
@[simp] theorem resetController_agenda : (resetController s).agenda = s.agenda := rfl
@[simp] theorem resetController_rounds : (resetController s).rounds = s.rounds := rfl
@[simp] theorem resetController_spent : (resetController s).spent = s.spent := rfl
@[simp] theorem resetController_params : (resetController s).params = s.params := rfl

end Sys2Proof.Machine
end

