-- ==== Sys2Proof/Laws/Ops.lean ====
section
/-! SUPPORT. One lemma per shared operation that says once everything it can do; a proof about a command cites these and
does not unfold the operation. -/

namespace Sys2Proof.Machine

/-! The bus primitives. -/

/-- What an answered write transaction does to the state (40_bus_adapter.md R130). -/
theorem busWrite_spec {a : BitVec 7} {r : BitVec 8} {bytes : List Byte} {s s' : State} {o : WriteOutcome}
    (h : busWrite a r bytes s = some (o, s')) :
    ∃ t, s.target.write s.params a r bytes = some (o, t) ∧ s' = (countTransaction s).setTarget t := by
  unfold busWrite at h
  split at h
  · cases h
  · next o' t heq => cases h; exact ⟨t, heq, rfl⟩

/-- What an answered read transaction does to the state (40_bus_adapter.md R131). -/
theorem busRead_spec {a : BitVec 7} {r : BitVec 8} {n : Nat} {s s' : State} {code : ErrCode} {bytes : List Byte}
    (h : busRead a r n s = some ((code, bytes), s')) :
    ∃ o bs t, s.target.read s.params a r n = some (o, bs, t) ∧
      ((o = .ack ∧ bytes = bs ∧ code = (if bs.length = n then .none else .short)
          ∧ s' = setRcount bs.length ((countTransaction s).setTarget t))
        ∨ (o ≠ .ack ∧ bytes = [] ∧ code = .nack ∧ s' = setRcount 0 ((countTransaction s).setTarget t))) := by
  unfold busRead at h
  split at h
  · cases h
  · next bs t heq => cases h; exact ⟨.ack, _, t, heq, .inl ⟨rfl, rfl, rfl, rfl⟩⟩
  · next o bs t hne heq => cases h; exact ⟨o, bs, t, heq, .inr ⟨hne, rfl, rfl, rfl⟩⟩

/-- The code of a read transaction is one of three. -/
theorem busRead_code {a : BitVec 7} {r : BitVec 8} {n : Nat} {s s' : State} {code : ErrCode} {bytes : List Byte}
    (h : busRead a r n s = some ((code, bytes), s')) : code = .none ∨ code = .nack ∨ code = .short := by
  obtain ⟨o, bs, t, -, ⟨-, -, rfl, -⟩ | ⟨-, -, rfl, -⟩⟩ := busRead_spec h
  · split <;> simp
  · simp

/-- A bus primitive writes the target and `RESULT` and nothing else. -/
def BusOnly (s s' : State) : Prop := ∃ r t, s' = (s.setResult r).setTarget t ∧ r.idValue = s.result.idValue

theorem busWrite_only {a : BitVec 7} {r : BitVec 8} {bytes : List Byte} {s s' : State} {o : WriteOutcome}
    (h : busWrite a r bytes s = some (o, s')) : BusOnly s s' := by
  obtain ⟨t, -, rfl⟩ := busWrite_spec h
  exact ⟨_, t, rfl, rfl⟩

theorem busRead_only {a : BitVec 7} {r : BitVec 8} {n : Nat} {s s' : State} {x : ErrCode × List Byte}
    (h : busRead a r n s = some (x, s')) : BusOnly s s' := by
  obtain ⟨o, bs, t, -, ⟨-, -, -, rfl⟩ | ⟨-, -, -, rfl⟩⟩ := busRead_spec (code := x.1) (bytes := x.2) h
  · exact ⟨_, t, rfl, rfl⟩
  · exact ⟨_, t, rfl, rfl⟩

/-- A write leaves every register of the controller but `RESULT` as it was. -/
theorem busWrite_same {a : BitVec 7} {r : BitVec 8} {bytes : List Byte} {s s' : State} {o : WriteOutcome}
    (h : busWrite a r bytes s = some (o, s')) :
    s'.status = s.status ∧ s'.ctx = s.ctx ∧ sameData s s' ∧ sameOutside s s' ∧ s'.result.rcount = s.result.rcount := by
  obtain ⟨t, -, rfl⟩ := busWrite_spec h
  exact ⟨rfl, rfl, ⟨rfl, rfl, rfl, rfl, rfl, rfl⟩, ⟨rfl, rfl, rfl, rfl, rfl, rfl, rfl, rfl, rfl⟩, rfl⟩

/-- A read leaves every register of the controller but `RESULT` as it was. -/
theorem busRead_same {a : BitVec 7} {r : BitVec 8} {n : Nat} {s s' : State} {x : ErrCode × List Byte}
    (h : busRead a r n s = some (x, s')) :
    s'.status = s.status ∧ s'.ctx = s.ctx ∧ sameData s s' ∧ sameOutside s s' := by
  obtain ⟨r, t, rfl, hr⟩ := busRead_only h
  exact ⟨rfl, rfl, ⟨rfl, rfl, rfl, rfl, rfl, hr⟩, ⟨rfl, rfl, rfl, rfl, rfl, rfl, rfl, rfl, rfl⟩⟩

theorem busWrite_sound {a : BitVec 7} {r : BitVec 8} {bytes : List Byte} {s s' : State} {o : WriteOutcome}
    (hs : s.target.Sound) (h : busWrite a r bytes s = some (o, s')) : s'.target.Sound := by
  obtain ⟨t, ht, rfl⟩ := busWrite_spec h
  exact Target.sound_write hs ht

theorem busRead_sound {a : BitVec 7} {r : BitVec 8} {n : Nat} {s s' : State} {x : ErrCode × List Byte}
    (hs : s.target.Sound) (h : busRead a r n s = some (x, s')) : s'.target.Sound := by
  obtain ⟨o, bs, t, ht, hcase⟩ := busRead_spec (code := x.1) (bytes := x.2) h
  have hsound := Target.sound_read hs ht
  obtain ⟨-, -, -, rfl⟩ | ⟨-, -, -, rfl⟩ := hcase
  · exact hsound
  · exact hsound

/-- A write changes the target's registers it covers and, where it fails, those its draw lists. -/
theorem busWrite_other {b : BitVec 7} {r : BitVec 8} {bytes : List Byte} {s s' : State} {o : WriteOutcome} {a : Nat}
    (h : busWrite b r bytes s = some (o, s')) (hr : r.toNat + bytes.length ≤ 256)
    (ha : a < r.toNat ∨ r.toNat + bytes.length ≤ a) (hn : notLeftOver a s) : s.target.SameAt a s'.target := by
  obtain ⟨t, ht, rfl⟩ := busWrite_spec h
  exact Target.write_other ht hr ha hn

/-- A read changes none of the target's registers or, where it fails, those its draw lists. -/
theorem busRead_other {b : BitVec 7} {r : BitVec 8} {n : Nat} {s s' : State} {x : ErrCode × List Byte} {a : Nat}
    (h : busRead b r n s = some (x, s')) (hn : notLeftOver a s) : s.target.SameAt a s'.target := by
  obtain ⟨o, bs, t, ht, hcase⟩ := busRead_spec (code := x.1) (bytes := x.2) h
  have hsame := Target.read_other ht hn
  obtain ⟨-, -, -, rfl⟩ | ⟨-, -, -, rfl⟩ := hcase
  · exact hsame
  · exact hsame

/-! Segments by their primitive call. -/

/-- A segment with a write: the target never answers and nothing changes, or the rest of the segment runs. -/
theorem onWrite_cases {a : BitVec 7} {r : BitVec 8} {bytes : List Byte} {s : State} {k : WriteOutcome → State → State} :
    (busWrite a r bytes s = none ∧ onWrite a r bytes s k = .next s)
      ∨ ∃ o s', busWrite a r bytes s = some (o, s') ∧ onWrite a r bytes s k = .next (k o s') := by
  unfold onWrite
  cases h : busWrite a r bytes s with
  | none => exact .inl ⟨rfl, rfl⟩
  | some x => exact .inr ⟨x.1, x.2, rfl, rfl⟩

/-- A segment with a read: the target never answers and nothing changes, or the rest of the segment runs. -/
theorem onRead_cases {a : BitVec 7} {r : BitVec 8} {n : Nat} {s : State} {k : ErrCode → List Byte → State → State} :
    (busRead a r n s = none ∧ onRead a r n s k = .next s)
      ∨ ∃ code bytes s', busRead a r n s = some ((code, bytes), s') ∧ onRead a r n s k = .next (k code bytes s') := by
  unfold onRead
  cases h : busRead a r n s with
  | none => exact .inl ⟨rfl, rfl⟩
  | some x => exact .inr ⟨x.1.1, x.1.2, x.2, rfl, rfl⟩

/-- An answered write: the rest of the segment. -/
theorem onWrite_answered {a : BitVec 7} {r : BitVec 8} {bytes : List Byte} {s s' : State} {o : WriteOutcome}
    {k : WriteOutcome → State → State} (h : busWrite a r bytes s = some (o, s')) :
    onWrite a r bytes s k = .next (k o s') := by
  simp [onWrite, h]

/-- An answered read: the rest of the segment. -/
theorem onRead_answered {a : BitVec 7} {r : BitVec 8} {n : Nat} {s s' : State} {code : ErrCode} {bytes : List Byte}
    {k : ErrCode → List Byte → State → State} (h : busRead a r n s = some ((code, bytes), s')) :
    onRead a r n s k = .next (k code bytes s') := by
  simp [onRead, h]

/-- What holds of the state before and of every answered ending holds after a segment with a write. -/
theorem onWrite_elim {P : State → Prop} {a : BitVec 7} {r : BitVec 8} {bytes : List Byte} {s t : State}
    {k : WriteOutcome → State → State} (h : onWrite a r bytes s k = .next t) (h0 : P s)
    (hk : ∀ o s', busWrite a r bytes s = some (o, s') → P (k o s')) : P t := by
  obtain ⟨-, h'⟩ | ⟨o, s', hw, h'⟩ := onWrite_cases (a := a) (r := r) (bytes := bytes) (s := s) (k := k)
  · rw [h'] at h; cases h; exact h0
  · rw [h'] at h; cases h; exact hk o s' hw

/-- What holds of the state before and of every answered ending holds after a segment with a read. -/
theorem onRead_elim {P : State → Prop} {a : BitVec 7} {r : BitVec 8} {n : Nat} {s t : State}
    {k : ErrCode → List Byte → State → State} (h : onRead a r n s k = .next t) (h0 : P s)
    (hk : ∀ code bytes s', busRead a r n s = some ((code, bytes), s') → P (k code bytes s')) : P t := by
  obtain ⟨-, h'⟩ | ⟨code, bytes, s', hw, h'⟩ := onRead_cases (a := a) (r := r) (n := n) (s := s) (k := k)
  · rw [h'] at h; cases h; exact h0
  · rw [h'] at h; cases h; exact hk code bytes s' hw

/-- `Wr` (40_bus_adapter.md R133): unanswered, or acknowledged and on, or failed with `NACK`. -/
theorem wr_cases {r : BitVec 8} {bytes : List Byte} {s : State} {k : State → State} :
    (busWrite s.params.devAddr r bytes s = none ∧ wr r bytes s k = .next s)
      ∨ (∃ s', busWrite s.params.devAddr r bytes s = some (.ack, s') ∧ wr r bytes s k = .next (k s'))
      ∨ ∃ o s', o ≠ .ack ∧ busWrite s.params.devAddr r bytes s = some (o, s') ∧ wr r bytes s k = .next (fail .nack s') := by
  unfold wr
  obtain ⟨h, h'⟩ | ⟨o, s', h, h'⟩ := onWrite_cases (a := s.params.devAddr) (r := r) (bytes := bytes) (s := s)
    (k := fun o s' => if o = .ack then k s' else fail .nack s')
  · exact .inl ⟨h, h'⟩
  · by_cases ho : o = .ack
    · subst ho; exact .inr (.inl ⟨s', h, by simpa using h'⟩)
    · exact .inr (.inr ⟨o, s', ho, h, by simpa [ho] using h'⟩)

/-- `Rd` (40_bus_adapter.md R133): unanswered, or all bytes returned and on, or failed with the transaction's code. -/
theorem rd_cases {r : BitVec 8} {n : Nat} {s : State} {k : List Byte → State → State} :
    (busRead s.params.devAddr r n s = none ∧ rd r n s k = .next s)
      ∨ (∃ bytes s', busRead s.params.devAddr r n s = some ((.none, bytes), s') ∧ rd r n s k = .next (k bytes s'))
      ∨ ∃ code bytes s', code ≠ .none ∧ busRead s.params.devAddr r n s = some ((code, bytes), s')
          ∧ rd r n s k = .next (fail code s') := by
  unfold rd
  obtain ⟨h, h'⟩ | ⟨code, bytes, s', h, h'⟩ := onRead_cases (a := s.params.devAddr) (r := r) (n := n) (s := s)
    (k := fun code bytes s' => if code = .none then k bytes s' else fail code s')
  · exact .inl ⟨h, h'⟩
  · by_cases hc : code = .none
    · subst hc; exact .inr (.inl ⟨bytes, s', h, by simpa using h'⟩)
    · exact .inr (.inr ⟨code, bytes, s', hc, h, by simpa [hc] using h'⟩)

/-- What holds of the state before and of both endings of `Wr` holds after it. -/
theorem wr_elim {P : State → Prop} {r : BitVec 8} {bytes : List Byte} {s t : State} {k : State → State}
    (h : wr r bytes s k = .next t) (h0 : P s)
    (hk : ∀ s', busWrite s.params.devAddr r bytes s = some (.ack, s') → P (k s'))
    (hf : ∀ o s', o ≠ .ack → busWrite s.params.devAddr r bytes s = some (o, s') → P (fail .nack s')) : P t := by
  refine onWrite_elim h h0 fun o s' hw => ?_
  split
  · next ho => subst ho; exact hk s' hw
  · next ho => exact hf o s' ho hw

/-- What holds of the state before and of both endings of `Rd` holds after it. -/
theorem rd_elim {P : State → Prop} {r : BitVec 8} {n : Nat} {s t : State} {k : List Byte → State → State}
    (h : rd r n s k = .next t) (h0 : P s)
    (hk : ∀ bytes s', busRead s.params.devAddr r n s = some ((.none, bytes), s') → P (k bytes s'))
    (hf : ∀ code bytes s', code ≠ .none → busRead s.params.devAddr r n s = some ((code, bytes), s') → P (fail code s')) :
    P t := by
  refine onRead_elim h h0 fun code bytes s' hw => ?_
  split
  · next ho => subst ho; exact hk bytes s' hw
  · next ho => exact hf code bytes s' ho hw

/-! Scripted answers, and the reference target by itself. -/

/-- An acknowledged write from the script. -/
theorem busWrite_scripted {a : BitVec 7} {r : BitVec 8} {bytes bs : List Byte} {more : List (Option Draw)} {s : State}
    (h : s.target.script = some (.ok bs) :: more) :
    busWrite a r bytes s
      = some (.ack, (countTransaction s).setTarget ((s.target.setScript more).absorb s.params a r bytes)) := by
  simp [busWrite, Target.write, Target.nextAnswer, h]

/-- An acknowledged read from the script. -/
theorem busRead_scripted {a : BitVec 7} {r : BitVec 8} {n : Nat} {bs : List Byte} {more : List (Option Draw)} {s : State}
    (h : s.target.script = some (.ok bs) :: more) :
    busRead a r n s = some ((if (bs.take n).length = n then .none else .short, bs.take n),
      setRcount (bs.take n).length
        ((countTransaction s).setTarget ((s.target.setScript more).point s.params a r (bs.take n).length))) := by
  simp [busRead, Target.read, Target.nextAnswer, h]

/-- A store keeps the kind of the target and the script. -/
theorem Target.storeReg_kind (p : Params) (r : BitVec 8) (v : Byte) (t : Target) :
    (t.storeReg p r v).kind = t.kind ∧ (t.storeReg p r v).script = t.script := by
  unfold Target.storeReg
  split
  · exact ⟨rfl, rfl⟩
  · split <;> exact ⟨rfl, rfl⟩

/-- A burst keeps the kind of the target and the script. -/
theorem Target.storeBurst_kind (p : Params) (bytes : List Byte) :
    ∀ (r : BitVec 8) (t : Target), (t.storeBurst p r bytes).kind = t.kind ∧ (t.storeBurst p r bytes).script = t.script := by
  induction bytes with
  | nil => intro r t; exact ⟨rfl, rfl⟩
  | cons v vs ih =>
    intro r t
    obtain ⟨h1, h2⟩ := ih (r + 1) (t.storeReg p r v)
    obtain ⟨g1, g2⟩ := Target.storeReg_kind p r v t
    exact ⟨h1.trans g1, h2.trans g2⟩

/-- What reaches the device keeps the kind of the target and the script. -/
theorem Target.absorb_kind (p : Params) (a : BitVec 7) (r : BitVec 8) (bytes : List Byte) (t : Target) :
    (t.absorb p a r bytes).kind = t.kind ∧ (t.absorb p a r bytes).script = t.script := by
  unfold Target.absorb
  split
  · exact Target.storeBurst_kind p bytes r t
  · exact ⟨rfl, rfl⟩

/-- The reference target with nothing scripted acknowledges every write and stores it (20_memory.md R77). -/
theorem busWrite_reference {s : State} (r : BitVec 8) (bytes : List Byte) (hk : s.target.kind = .reference)
    (hs : s.target.script = []) :
    busWrite s.params.devAddr r bytes s
      = some (.ack, (countTransaction s).setTarget (s.target.storeBurst s.params r bytes)) := by
  simp [busWrite, Target.write, Target.nextAnswer, Target.ownAnswer, hs, Target.absorb, Target.isDevice, hk]

/-- The reference target with nothing scripted answers every read in full (20_memory.md R77). -/
theorem busRead_reference {s : State} (r : BitVec 8) (n : Nat) (hk : s.target.kind = .reference)
    (hs : s.target.script = []) :
    busRead s.params.devAddr r n s = some ((.none, (s.target.fetchBurst s.params n r).1),
      setRcount n ((countTransaction s).setTarget (s.target.fetchBurst s.params n r).2)) := by
  simp [busRead, Target.read, Target.nextAnswer, Target.ownAnswer, hk, hs, Target.fetchBurst_length]

/-! The parameters. -/

/-- Where the constraints of 00_scope.md R8 put the registers. -/
theorem Params.wf_regs {p : Params} (h : p.wf = true) :
    (0x58 ≤ p.idReg.toNat ∧ p.idReg.toNat ≤ 0x66) ∧ 0x80 ≤ p.cfg0Reg.toNat ∧ 0x80 ≤ p.enableReg.toNat
      ∧ 0x80 ≤ p.atimeReg.toNat ∧ 0x80 ≤ p.astepReg.toNat ∧ 0x80 ≤ p.gainReg.toNat ∧ 0x80 ≤ p.smuxReg.toNat
      ∧ 0x80 ≤ p.statusReg.toNat ∧ (p.astepReg + 1).toNat = p.astepReg.toNat + 1 := by
  simp only [Params.wf, Bool.and_eq_true, List.all_cons, decide_eq_true_eq] at h
  obtain ⟨⟨⟨⟨⟨⟨⟨⟨-, h2⟩, -⟩, h4⟩, h5⟩, h6⟩, -⟩, -⟩, -⟩ := h
  obtain ⟨a1, a2, a3, a4, -, a6, a7, a8, -⟩ := h2
  refine ⟨⟨h4, h5⟩, a1, a2, a3, a4, a6, a7, a8, ?_⟩
  rw [BitVec.toNat_add]; simp; omega

/-- `ATIME_REG` is neither byte of `ASTEP_REG` (00_scope.md R8). -/
theorem Params.wf_ne {p : Params} (h : p.wf = true) :
    p.atimeReg.toNat ≠ p.astepReg.toNat ∧ p.atimeReg.toNat ≠ p.astepReg.toNat + 1 := by
  have h' := (Params.wf_regs h).2.2.2.2.2.2.2.2
  simp only [Params.wf, Bool.and_eq_true, decide_eq_true_eq, List.nodup_cons, List.mem_cons, not_or] at h
  obtain ⟨⟨⟨⟨⟨⟨⟨⟨h1, -⟩, -⟩, -⟩, -⟩, -⟩, -⟩, -⟩, -⟩ := h
  obtain ⟨-, -, -, ⟨a1, a2, -⟩, -⟩ := h1
  exact ⟨fun h => a1 (BitVec.eq_of_toNat_eq h), fun h => a2 (BitVec.eq_of_toNat_eq (by omega))⟩

/-! Inside a command. -/

/-- A meaning runs only inside a command. -/
theorem inCommand_some {s : State} {c : Ctx} {k : Ctx → Out} (h : s.ctx = some c) : inCommand s k = k c := by
  simp [inCommand, h]

/-- A meaning that answers next found a context. -/
theorem inCommand_next {s t : State} {k : Ctx → Out} (h : inCommand s k = .next t) :
    ∃ c, s.ctx = some c ∧ k c = .next t := by
  unfold inCommand at h
  split at h
  · cases h
  · next c heq => exact ⟨c, heq, h⟩

/-- The snoop writes the mirror and nothing else (40_bus_adapter.md R135). -/
theorem snoop_mirror (a : BitVec 7) (r : BitVec 8) (n : BitVec 6) (o : WriteOutcome) (s : State) :
    snoop a r n o s = setMirror (snoop a r n o s).status.bank s := by
  unfold snoop
  split
  · split <;> rfl
  · rfl

/-- A mirror of a known bank is 0b00 or 0b01 (10_state.md R27). -/
theorem bankMirror_cases (b : BitVec 1) : bankMirror b = 0b00 ∨ bankMirror b = 0b01 := by revert b; decide

/-! The turns that the agenda leaves open. -/

/-- An open turn is one more of its round, or the first of the next (log 4). -/
theorem countOpen_cases (s : State) :
    (s.spent ≤ (Config.freeRound s.rounds).1 + (Config.freeRound s.rounds).2 ∧ countOpen s = s.setSpent (s.spent + 1))
      ∨ ((Config.freeRound s.rounds).1 + (Config.freeRound s.rounds).2 < s.spent
          ∧ countOpen s = (s.setRounds (s.rounds + 1)).setSpent 0) := by
  unfold countOpen
  split
  · next h => exact .inl ⟨h, rfl⟩
  · next h => exact .inr ⟨by omega, rfl⟩

@[simp] theorem countOpen_cmd (s : State) : (countOpen s).cmd = s.cmd := by unfold countOpen; split <;> rfl
@[simp] theorem countOpen_arg (s : State) : (countOpen s).arg = s.arg := by unfold countOpen; split <;> rfl
@[simp] theorem countOpen_status (s : State) : (countOpen s).status = s.status := by unfold countOpen; split <;> rfl
@[simp] theorem countOpen_timeout (s : State) : (countOpen s).timeout = s.timeout := by unfold countOpen; split <;> rfl
@[simp] theorem countOpen_result (s : State) : (countOpen s).result = s.result := by unfold countOpen; split <;> rfl
@[simp] theorem countOpen_buf (s : State) : (countOpen s).buf = s.buf := by unfold countOpen; split <;> rfl
@[simp] theorem countOpen_ch (s : State) : (countOpen s).ch = s.ch := by unfold countOpen; split <;> rfl
@[simp] theorem countOpen_sorted (s : State) : (countOpen s).sorted = s.sorted := by unfold countOpen; split <;> rfl
@[simp] theorem countOpen_ctx (s : State) : (countOpen s).ctx = s.ctx := by unfold countOpen; split <;> rfl
@[simp] theorem countOpen_nowMs (s : State) : (countOpen s).nowMs = s.nowMs := by unfold countOpen; split <;> rfl
@[simp] theorem countOpen_target (s : State) : (countOpen s).target = s.target := by unfold countOpen; split <;> rfl
@[simp] theorem countOpen_host (s : State) : (countOpen s).host = s.host := by unfold countOpen; split <;> rfl
@[simp] theorem countOpen_agenda (s : State) : (countOpen s).agenda = s.agenda := by unfold countOpen; split <;> rfl
@[simp] theorem countOpen_params (s : State) : (countOpen s).params = s.params := by unfold countOpen; split <;> rfl

/-- Who moves at an open turn, by the place in the round (log 4). -/
theorem openTurn_cases (s : State) :
    (s.spent ≤ (Config.freeRound s.rounds).1 ∧ openTurn s = ctrlTurn (s.setSpent (s.spent + 1)))
      ∨ ((Config.freeRound s.rounds).1 < s.spent ∧ openTurn s = .next (clockTurn (countOpen s))) := by
  unfold openTurn openAgent
  split
  · next h =>
    refine .inr ⟨?_, rfl⟩
    split at h
    · cases h
    · next hs => omega
  · next h =>
    split at h
    · next hs => exact .inl ⟨hs, by rw [countOpen, if_pos (by omega)]⟩
    · cases h

/-! Runs. -/

@[simp] theorem runSteps_zero (s : State) : runSteps 0 s = .next s := rfl

/-- A run whose first step answers next goes on from there. -/
theorem runSteps_succ {s t : State} (n : Nat) (h : step s = .next t) : runSteps (n + 1) s = runSteps n t := by
  simp [runSteps, h]

/-! The range check. -/

/-- The range check of `WRITE` and `READ` as inequalities (30_encoding.md R105). -/
theorem burstOk_iff {r : BitVec 8} {n : BitVec 6} :
    burstOk r n = true ↔ 1 ≤ n.toNat ∧ n.toNat ≤ 32 ∧ r.toNat + n.toNat ≤ 256 := by
  simp only [burstOk, Bool.and_eq_true, decide_eq_true_eq, show maxBurst = 32 from rfl]
  omega

/-! The host. -/

/-- An admitted host access is 32 bits wide and aligned (20_memory.md R65). -/
theorem ifAdmitted_next {w : Width} {off : BitVec 8} {s t : State} (h : ifAdmitted w off s = .next t) :
    w = .word ∧ isAligned off = true ∧ t = s := by
  unfold ifAdmitted at h
  split at h
  · cases h
  · cases h
  · split at h
    · next ha => cases h; exact ⟨rfl, ha, rfl⟩
    · cases h

/-- A host write to a writable register: dropped with `WERR` while busy, done while idle (10_state.md R41). -/
theorem ifIdle_cases (act : State → State) (s : State) :
    (s.status.busy = true ∧ ifIdle act s = s.setStatus (s.status.setWerr true))
      ∨ (s.status.busy = false ∧ ifIdle act s = act s) := by
  unfold ifIdle
  cases h : s.status.busy with
  | true => exact .inl ⟨rfl, by simp⟩
  | false => exact .inr ⟨rfl, by simp⟩

/-- Every register of the window is found at its offset, and its offset is aligned (10_state.md R22). -/
theorem Csr.atOffset_offset (r : Csr) : Csr.atOffset r.offset = some r ∧ isAligned r.offset = true := by
  cases r with
  | bufw j => revert j; decide
  | chw j => revert j; decide
  | srw j => revert j; decide
  | _ => decide

/-! The command word. -/

/-- The bits of a word of format `C` (30_encoding.md R100). -/
theorem formatC_bit (n : BitVec 6) (r : BitVec 8) (a : BitVec 7) (op : BitVec 8) (k : Nat) :
    (formatC n r a op).getLsbD k
      = if k < 8 then op.getLsbD k else if k < 15 then a.getLsbD (k - 8) else if k < 16 then false
        else if k < 24 then r.getLsbD (k - 16) else n.getLsbD (k - 24) := by
  unfold formatC
  show BitVec.getLsbD (w := 2 + 6 + 8 + 1 + 7 + 8) (0#2 ++ n ++ r ++ 0#1 ++ a ++ op) k = _
  simp only [BitVec.getLsbD_append]
  by_cases h1 : k < 8
  · rw [if_pos h1, if_pos h1]
  rw [if_neg h1, if_neg h1]
  by_cases h2 : k < 15
  · rw [if_pos (by omega), if_pos h2]
  rw [if_neg (by omega), if_neg h2]
  by_cases h3 : k < 16
  · rw [if_pos (by omega), if_pos h3]; simp
  rw [if_neg (by omega), if_neg h3]
  by_cases h4 : k < 24
  · rw [if_pos (by omega), if_pos h4]; congr 1
  rw [if_neg (by omega), if_neg h4]
  by_cases h5 : k < 30
  · rw [if_pos (by omega)]; congr 1
  rw [if_neg (by omega), BitVec.getLsbD_of_ge n _ (by omega)]; simp

/-! Data. -/

/-- A filled buffer holds the received bytes first and what it held after them (40_bus_adapter.md R137). -/
theorem bufFill_get (buf : Vector Byte 32) (bytes : List Byte) (k : Nat) (hk : k < 32) :
    (bufFill buf bytes)[k] = if h : k < bytes.length then bytes[k] else buf[k] := by
  simp [bufFill]

/-- The sorted view takes entry `k` from `CH[SORT_PERM[k]]` (43_acquisition.md R190). -/
theorem sortedView_get (ch : Vector Half 18) (k : Nat) (hk : k < 12) : (sortedView ch)[k] = ch[sortPerm[k]] := by
  simp [sortedView]

/-! Reset. -/

/-- The two ways to say that the command stands at a transaction agree. -/
theorem onBus_iff (i : Instr) (c : Ctx) (s : State) : onBus i c s = true ↔ atTransaction i c s := by
  obtain ⟨g, t0, e, v, stg, k⟩ := c
  cases g <;> simp [onBus, atTransaction]
  cases i <;> simp [opensOnBus, startsWithTransaction, burstOk_iff, argGain, maxGainCode, bankMirror]
  intro _; exact decide_eq_true_iff

/-- A transaction is in progress exactly while a command stands at one, and it goes to the command's address. -/
theorem pendingAddress_eq_some {s : State} {a : BitVec 7} :
    pendingAddress s = some a ↔ s.status.busy = true ∧ ∃ c i, s.ctx = some c ∧ decode s.cmd = .ok i
      ∧ atTransaction i c s ∧ busAddress i s = a := by
  unfold pendingAddress
  constructor
  · intro h
    split at h
    · next c i hb hc hi =>
      split at h
      · next hon => exact ⟨hb, c, i, hc, hi, (onBus_iff i c s).mp hon, Option.some.inj h⟩
      · cases h
    · cases h
  · rintro ⟨hb, c, i, hc, hi, hat, rfl⟩
    rw [hb, hc, hi]
    simp [(onBus_iff i c s).mpr hat]

/-- All that a reset can do: the controller takes its reset values, and the target stays or has a transaction cut. -/
theorem hostReset_cases (cut : Leftover) (s : State) :
    (pendingAddress s = none ∧ hostReset cut s = resetController s)
      ∨ ∃ a, pendingAddress s = some a
        ∧ hostReset cut s = (resetController s).setTarget (s.target.cutOff s.params a cut) := by
  unfold hostReset
  cases pendingAddress s with
  | none => exact .inl ⟨rfl, rfl⟩
  | some a => exact .inr ⟨a, rfl, rfl⟩

end Sys2Proof.Machine
end

