-- ==== Sys2Proof/Laws/PerInstr.lean ====
section
/-! SUPPORT. A family of lemmas made per command: the `OP` field of a command's word is the opcode of 30_encoding.md R102. -/

namespace Sys2Proof.Laws.Opcode

/-- The `OP` field of the command's word is its opcode. -/
def Statement (i : Instr) : Prop := opField (encode i) = i.opcode

theorem write (a : BitVec 7) (r : BitVec 8) (n : BitVec 6) : Statement (.write a r n) := by
  unfold Statement opField encode formatC Instr.opcode
  rw [BitVec.extractLsb'_append_eq_of_add_le (by decide)]
  rfl

theorem read (a : BitVec 7) (r : BitVec 8) (n : BitVec 6) : Statement (.read a r n) := by
  unfold Statement opField encode formatC Instr.opcode
  rw [BitVec.extractLsb'_append_eq_of_add_le (by decide)]
  rfl

theorem setBank : Statement .setBank := by unfold Statement; decide
theorem isConnected : Statement .isConnected := by unfold Statement; decide
theorem init : Statement .init := by unfold Statement; decide
theorem setGain : Statement .setGain := by unfold Statement; decide
theorem setItime : Statement .setItime := by unfold Statement; decide
theorem setTimeout : Statement .setTimeout := by unfold Statement; decide
theorem waitDataReady : Statement .waitDataReady := by unfold Statement; decide
theorem readAll : Statement .readAll := by unfold Statement; decide
theorem getSorted : Statement .getSorted := by unfold Statement; decide

end Sys2Proof.Laws.Opcode
end

