-- ==== Sys2Proof/Tests/Slice0.lean ====
section
/-! SUPPORT. Tests on fixed values, each about one word, one host access or one segment, expected results from spec/; and for
every statement with hypotheses a named witness that meets them together. -/

namespace Sys2Proof.Tests

open Sys2Proof Sys2Proof.Machine

/-! The argument check of the words (30_encoding.md R105). -/

theorem test_wellFormed_accepts : (Instr.write 0x39 0x80 1).wellFormed = true ∧ (Instr.read 0x39 0xE0 32).wellFormed = true
    ∧ Instr.getSorted.wellFormed = true := by decide
theorem test_wellFormed_refuses_no_bytes : (Instr.write 0x39 0x80 0).wellFormed = false := by decide
theorem test_wellFormed_refuses_33_bytes : (Instr.read 0x39 0x00 33).wellFormed = false := by decide
theorem test_wellFormed_refuses_past_0xFF : (Instr.write 0x39 0xFF 2).wellFormed = false
    ∧ (Instr.read 0x39 0xE1 32).wellFormed = false := by decide

/-! Words written out from format `C`: `00 LEN REG 0 TADDR OP` (30_encoding.md R100, R102). -/

theorem test_decode_write : decode 0b00_000001_10000000_0_0111001_00000001 = .ok (.write 0x39 0x80 1) := by decide
theorem test_decode_read : decode 0b00_100000_11100000_0_0111001_00000010 = .ok (.read 0x39 0xE0 32) := by decide
theorem test_decode_setBank : decode 0b00_000000_00000000_0_0000000_00000011 = .ok .setBank := by decide
theorem test_decode_isConnected : decode 0b00_000000_00000000_0_0000000_00000100 = .ok .isConnected := by decide
theorem test_decode_init : decode 0b00_000000_00000000_0_0000000_00000101 = .ok .init := by decide
theorem test_decode_setGain : decode 0b00_000000_00000000_0_0000000_00000110 = .ok .setGain := by decide
theorem test_decode_setItime : decode 0b00_000000_00000000_0_0000000_00000111 = .ok .setItime := by decide
theorem test_decode_setTimeout : decode 0b00_000000_00000000_0_0000000_00001000 = .ok .setTimeout := by decide
theorem test_decode_waitDataReady : decode 0b00_000000_00000000_0_0000000_00001001 = .ok .waitDataReady := by decide
theorem test_decode_readAll : decode 0b00_000000_00000000_0_0000000_00001010 = .ok .readAll := by decide
theorem test_decode_getSorted : decode 0b00_000000_00000000_0_0000000_00001011 = .ok .getSorted := by decide

/-- The words that 95_test_vectors.md section 2.1 calls illegal. -/
theorem test_decode_refuses : decode 0x41013901 = .error .reservedBit ∧ decode 0x01018001 = .error .reservedBit
    ∧ decode 0x80000002 = .error .reservedBit ∧ decode 0x00000000 = .error .illegalOpcode
    ∧ decode 0x0000000C = .error .illegalOpcode ∧ decode 0x000000FF = .error .illegalOpcode
    ∧ decode 0x00000104 = .error .reservedBit ∧ decode 0x00010008 = .error .reservedBit := by decide

theorem test_encode_write : encode (.write 0x39 0xF0 16) = 0x10F03901 := by decide

/-! States for the tests. -/

/-- The machine after reset with the parameters of 95_test_vectors.md. -/
def bench : State := { State.reset with params := Params.withDefaults 9 5 }

/-- The bench with the reference target: stored registers, and answers fixed in advance. -/
def onReference (cells : Memory) (script : List (Option Draw)) : State :=
  bench.setTarget { Target.atReset with kind := .reference, regs := cells, script := script }

/-- A position with a byte in `V`. -/
def posn (g : Seg) (v : Byte) : Ctx := { Ctx.fresh with seg := g, v := v }

/-- The command has been issued and stands at a position. -/
def running (i : Instr) (c : Ctx) (s : State) : State := (issue (encode i) s).setCtx (some c)

/-- What a test looks at in the next state. -/
def seen {α : Type} (o : Out) (look : State → α) : Option α :=
  match o with
  | .next t => some (look t)
  | .fault _ => none
  | .refused _ => none

/-- The words `STATUS` and `RESULT`. -/
def words (t : State) : Word × Word := (t.status.word, t.result.word)

/-- The bench with bank 0 in the mirror. -/
def inBank0 (cells : Memory) (script : List (Option Draw)) : State := setMirror 0 (onReference cells script)

/-! One segment of each command; expected results from 95_test_vectors.md section 2 or from the rule. -/

theorem test_write_stores : seen (exec (.write 0x39 0x81 1) (running (.write 0x39 0x81 1) Ctx.fresh
      ((onReference [] []).setBuf (Vector.replicate 32 0x40)))) (fun t => (words t, t.target.regs))
    = some ((0x000000C6, 0x00010000), [(0x81, 0x40)]) := by decide
theorem test_write_snoops : seen (exec (.write 0x39 0xBE 2) (running (.write 0x39 0xBE 2) Ctx.fresh
      (inBank0 [] [some (.nackByte 2 .nothing)]))) words = some (0x000001C2, 0x00010000) := by decide
theorem test_read_fills : seen (exec (.read 0x39 0x95 4) (running (.read 0x39 0x95 4) Ctx.fresh
      (onReference [(0x95, 0x12), (0x96, 0x34), (0x97, 0x56), (0x98, 0x78)] []))) (fun t => (t.result.word, bufWord t.buf 0))
    = some (0x00010400, 0x78563412) := by decide
theorem test_read_short : seen (exec (.read 0x39 0x95 4) (running (.read 0x39 0x95 4) Ctx.fresh
      ((onReference [] [some (.ok [0xAA, 0xBB])]).setBuf (Vector.replicate 32 0x44)))) (fun t => (words t, bufWord t.buf 0))
    = some ((0x000002C2, 0x00010200), 0x4444BBAA) := by decide
theorem test_setBank_reads : seen (exec .setBank (running .setBank Ctx.fresh (onReference [(0xBF, 0x24)] [])))
      (fun t => (t.ctx.map fun c => (c.seg, c.v))) = some (some (.bankWrite, 0x24)) := by decide
theorem test_setBank_writes : seen (exec .setBank (running .setBank (posn .bankWrite 0x24)
      ((onReference [(0xBF, 0x24)] []).setArg 1))) (fun t => (t.status.word, t.target.regs))
    = some (0x00000046, [(0xBF, 0x34)]) := by decide
theorem test_isConnected_skips_identity : seen (exec .isConnected (running .isConnected Ctx.fresh
      (onReference [] [some (.nackByte 0 .nothing)]))) (fun t => t.ctx.map fun c => (c.seg, c.e)) = some (some (.backRead, 1)) := by
  decide
theorem test_isConnected_ends_with_bank_0 : seen (exec .isConnected (running .isConnected
      { posn .backWrite 0x10 with e := 7 } (onReference [(0xBF, 0x10)] []))) (fun t => (t.status.word, t.target.regs))
    = some (0x00000702, [(0xBF, 0x00)]) := by decide
theorem test_init_writes_smux : seen (exec .init (running .init (posn .smuxWrite 0x9F) (onReference [(0xD6, 0x9F)] [])))
      (fun t => t.target.regs) = some [(0xD6, 0xFF)] := by decide
theorem test_init_waits : seen (exec .init (running .init { posn .delayLoop 0 with t0 := 0xFFFFFFFE } (bench.setNowMs 2)))
      (fun t => t.ctx.map fun c => c.seg) = some (some .delayLoop)
    ∧ seen (exec .init (running .init { posn .delayLoop 0 with t0 := 0xFFFFFFFE } (bench.setNowMs 3)))
      (fun t => t.ctx.map fun c => c.seg) = some (some .smuxRead) := by decide
theorem test_setGain_checks_range_first : seen (exec .setGain (running .setGain Ctx.fresh (bench.setArg 13))) words
    = some (0x000005C2, 0x00000000) := by decide
theorem test_setGain_keeps_high_bits : seen (exec .setGain (running .setGain (posn .gainWrite 0xA7)
      ((inBank0 [(0xC6, 0xA7)] []).setArg 5))) (fun t => (t.status.word, t.target.regs)) = some (0x006, [(0xC6, 0xA5)]) := by
  decide
theorem test_setItime_checks_bank : seen (exec .setItime (running .setItime Ctx.fresh bench)) words
    = some (0x000006C2, 0x00000000) := by decide
theorem test_setItime_high_byte : seen (exec .setItime (running .setItime (posn .astepHigh 0)
      ((inBank0 [] []).setArg 0x004E2001))) (fun t => (words t, t.target.regs))
    = some ((0x00000006, 0x00010000), [(0xD5, 0x4E)]) := by decide
theorem test_setTimeout : seen (exec .setTimeout (running .setTimeout Ctx.fresh (bench.setArg 0xFFFFFFFF)))
      (fun t => (words t, t.timeout)) = some ((0x000000C6, 0x00000000), 0xFFFFFFFF) := by decide
theorem test_waitDataReady_wraps : seen (exec .waitDataReady (running .waitDataReady
      { posn .waitCheck 0 with t0 := 0xFFFFFFF0 } ((bench.setTimeout 50).setNowMs 0x10))) (fun t => t.ctx.map fun c => c.seg)
    = some (some .poll) := by decide
theorem test_waitDataReady_times_out : seen (exec .waitDataReady (running .waitDataReady
      { posn .waitCheck 0 with t0 := 0xFFFFFFF0 } ((bench.setTimeout 32).setNowMs 0x10))) words
    = some (0x000003C2, 0x00000000) := by decide
theorem test_readAll_clears_flags : seen (exec .readAll (running .readAll Ctx.fresh
      ((onReference [] [some (.nackByte 0 .nothing)]).setStatus ((Status.reset.setChValid true).setSortedValid true)))) words
    = some (0x000001C2, 0x00010000) := by decide
theorem test_readAll_last_channel : seen (exec .readAll (running .readAll { posn .channel 0 with i := 17 }
      (inBank0 [(0xB7, 0x11), (0xB8, 0x11)] []))) (fun t => (t.status.word, t.ch[17], t.ch[16]))
    = some (0x0000000E, 0x1111, 0x0000) := by decide
theorem test_getSorted_last_channel : seen (exec .getSorted (running .getSorted { posn .channel 0 with i := 17 }
      ((inBank0 [(0xB7, 0x11), (0xB8, 0x00)] []).setCh (Vector.ofFn fun k => BitVec.ofNat 16 k.val))))
      (fun t => (t.status.word, csrRead 0x64 t, csrRead 0x78 t)) = some (0x0000001E, 0x0006000C, 0x0003000E) := by decide
theorem test_getSorted_failure_keeps_sorted : seen (exec .getSorted (running .getSorted { posn .channel 0 with i := 9 }
      ((inBank0 [] [some (.nackByte 0 .nothing)]).setSorted (Vector.replicate 12 0x77)))) (fun t => (t.status.word, t.sorted[0]))
    = some (0x00000102, 0x77) := by decide

/-- A refused address byte and a short read leave in the device what their draw says, `PTR` included (40_bus_adapter.md R130,
70_reset_and_hazards.md R268). -/
theorem test_refused_address_leaves : (busWrite 0x39 0xD4 [0x20] (onReference [(0xD4, 0x11)]
      [some (.nackAddr { stores := [(0xD4, 0x99)], ptr := some 0x42 })])).map (fun x => (x.1, x.2.target.regs, x.2.target.ptr))
    = some (.nackAddr, [(0xD4, 0x99)], 0x42) := by decide
theorem test_short_read_leaves : (busRead 0x39 0x80 1 (onReference [(0x80, 0x01)]
      [some (.short [] { stores := [(0x80, 0x03)], ptr := none })])).map (fun x => (x.1, x.2.target.regs))
    = some ((.short, []), [(0x80, 0x03)]) := by decide

/-! The host. -/

/-- The bench with one host access to do. -/
def hosting (op : HostOp) (s : State) : State := (s.setAgenda [.host]).setHost { prog := [op], readData := 0 }

theorem test_illegal_word : seen (ctrlTurn (issue 0x00000104 bench)) (fun t => (words t, t.cmd))
    = some ((0x000004C2, 0x00000000), 0x00000104) := by decide
theorem test_reset_status : seen (step (hosting (.load .word 0x08) bench)) (fun t => t.host.readData) = some 0x000000C0 := by
  decide
theorem test_busy_write_sets_werr : seen (step (hosting (.store .word 0x04 7) (issue 0x0B bench)))
      (fun t => (t.status.word, t.arg)) = some (0x000000E1, 0) := by decide
theorem test_half_access_refused : step (hosting (.store .half 0x04 7) bench) = .refused .narrowHostAccess := rfl
theorem test_narrow_is_checked_first : step (hosting (.load .byte 0x05) bench) = .refused .narrowHostAccess := rfl
theorem test_misaligned_access_refused : step (hosting (.load .word 0x06) bench) = .refused .misalignedHostAccess := rfl
theorem test_low_precision : (Pseudo.setPrecision .low).expand
    = [.store .word 0x04 0x0003E700, .store .word 0x00 0x00000007, .waitIdle,
       .store .word 0x04 0x00000032, .store .word 0x00 0x00000008, .waitIdle] := rfl
theorem test_reset_memory_wf : Target.atReset.regs.wf = true ∧ Target.atReset.regs1.wf = true
    ∧ Memory.wf [(3, 0x01), (2, 0x01)] = false := by decide
theorem test_params_wf : (Params.withDefaults 0 0).wf = true := by decide

/-! Witnesses: states and operands that meet the hypotheses of each statement together. -/

theorem witness_EncodeOfDecode : decode 0x20E03902 = .ok (.read 0x39 0xE0 32) ∧ decode 0x0000000B = .ok .getSorted := by decide

/-- Each clause of `IllegalWord` at a boundary, while a command is in progress. -/
theorem witness_IllegalWordsCompleteWithIllegal :
    (∀ w ∈ [(0x00000000 : Word), 0x0000000C, 0x000000FF, 0x80000001, 0x40000002, 0x00008002, 0x00000103, 0x8000000B],
      (issue w bench).status.busy = true ∧ IllegalWord w)
    ∧ ∀ w ∈ [(0x00000001 : Word), 0x3FFF7F02, 0x00000003, 0x0000000B], ¬IllegalWord w := by
  simp [IllegalWord, issue, Status.issued, State.setStatus, State.setResult, State.setCtx]

theorem witness_StepRunsDecodedCommand :
    let s := (issue 0x00000003 bench).setAgenda [.ctrl, .clock]
    s.agenda = .ctrl :: [.clock] ∧ s.status.busy = true ∧ decode s.cmd = .ok .setBank := by decide
theorem witness_FetchWordRunsNext : decodeTableWord 32 0x01803901 = some (.write 0x39 0x80 1)
    ∧ decodeTableWord 32 0x0000000B = some .getSorted := by decide
theorem witness_ClockTurnCountsOne :
    let s := (bench.setNowMs 0xFFFFFFFF).setAgenda [.clock]
    s.agenda = .clock :: [] := rfl
/-- The last turn of `CTRL` in a round, the first of `CLOCK`, and the last of the round. -/
theorem witness_OpenTurnIsClockOrController :
    let r := Config.freeRound 0
    ∀ n ∈ [r.1, r.1 + 1, r.1 + r.2 + 1],
      (State.reset.setSpent n).agenda = [] ∧ (State.reset.setSpent n).rounds = 0 ∧ (State.reset.setSpent n).spent = n :=
  fun _ _ => ⟨rfl, rfl, rfl⟩
theorem witness_IdleControllerHasNoStep :
    let s := bench.setAgenda [.ctrl]
    s.agenda = .ctrl :: [] ∧ s.status.busy = false := by decide
theorem witness_IdleWriteToCmdIssues :
    let s := hosting (.store .word 0x00 0x00000104) bench
    s.agenda = .host :: [] ∧ s.host.prog = .store .word 0x00 0x00000104 :: [] ∧ s.status.busy = false := by decide
theorem witness_IdleWriteToArgStores :
    let s := hosting (.store .word 0x04 0xFFFFFFFF) bench
    s.agenda = .host :: [] ∧ s.host.prog = .store .word 0x04 0xFFFFFFFF :: [] ∧ s.status.busy = false := by decide
theorem witness_BusyHostWriteOnlySetsWerr :
    (∀ r ∈ [Csr.cmd, .arg, .bufw 0, .bufw 7],
      let s := hosting (.store .word r.offset 7) (issue 0x00000003 bench)
      s.agenda = .host :: [] ∧ s.host.prog = .store .word r.offset 7 :: [] ∧ s.status.busy = true)
    ∧ Csr.cmd = .cmd ∧ Csr.arg = .arg ∧ (∃ j, Csr.bufw 0 = .bufw j) ∧ ∃ j, Csr.bufw 7 = .bufw j :=
  ⟨by decide, rfl, rfl, ⟨0, rfl⟩, ⟨7, rfl⟩⟩

/-- The first and the last offset of every range; no offset is in two of them. -/
theorem witness_ReservedAndReadOnlyOffsets :
    (∀ off ∈ [(0x18 : BitVec 8), 0x1C, 0x7C, 0xFC],
      off.toNat % 4 = 0 ∧ ((0x18 ≤ off.toNat ∧ off.toNat ≤ 0x1F) ∨ 0x7C ≤ off.toNat) ∧ Csr.atOffset off = none)
    ∧ ∀ off ∈ [(0x08 : BitVec 8), 0x14, 0x40, 0x78],
      off.toNat % 4 = 0 ∧ ((0x08 ≤ off.toNat ∧ off.toNat ≤ 0x14) ∨ (0x40 ≤ off.toNat ∧ off.toNat ≤ 0x78))
        ∧ Csr.atOffset off ≠ none := by decide
theorem witness_HostReadHasNoSideEffect :
    let s := hosting (.load .word (Csr.srw 5).offset) (issue 0x0000000B bench)
    s.agenda = .host :: [] ∧ s.host.prog = .load .word (Csr.srw 5).offset :: [] := by decide
/-- The first and the last offset of each reserved range. -/
theorem witness_HostReadHasNoSideEffect_reserved : ∀ off ∈ [(0x18 : BitVec 8), 0x1C, 0x7C, 0xFC],
    let s := hosting (.load .word off) (issue 0x0000000B bench)
    s.agenda = .host :: [] ∧ off.toNat % 4 = 0 ∧ ((0x18 ≤ off.toNat ∧ off.toNat ≤ 0x1F) ∨ 0x7C ≤ off.toNat)
      ∧ s.host.prog = .load .word off :: [] := by decide
theorem witness_BufferWordsAreLittleEndian : bench.status.busy = false := rfl
theorem witness_HostAccessAdmission :
    (Width.word = .word ∧ (0xFC : BitVec 8).toNat % 4 = 0) ∧ Width.half ≠ .word ∧ (0x06 : BitVec 8).toNat % 4 ≠ 0 := by decide
/-- Reset while idle; in the delay, at the time check, for `SET_TIMEOUT`, for a code out of range and for an illegal word, none
of them at a transaction; at a transaction; and in a raw command to another address. -/
theorem witness_HostResetValues :
    bench.status.busy = false ∧ (issue 0x0000000A bench).status.busy = true
    ∧ (∀ x ∈ [(Instr.init, Seg.delayStart), (.init, .delayLoop), (.getSorted, .waitCheck), (.setTimeout, .start), (.setGain, .start),
        (.write 0x39 0xFF 2, .start)],
      let s := running x.1 (posn x.2 0) (bench.setArg 13)
      s.ctx = some (posn x.2 0) ∧ decode s.cmd = .ok x.1 ∧ onBus x.1 (posn x.2 0) s = false ∧ pendingAddress s = none)
    ∧ pendingAddress (issue 0x0000000C bench) = none ∧ pendingAddress (issue 0x00000003 bench) = some 0x39
    ∧ ((0x22 : BitVec 7) ≠ bench.params.devAddr ∧ decode (issue 0x01802201 bench).cmd = .ok (.write 0x22 0x80 1)
      ∧ pendingAddress (issue 0x01802201 bench) = some 0x22) := by decide
/-- The clause of no transaction, in the words of the statement: the delay, the range check and an illegal word. -/
theorem witness_HostResetValues_noTransaction :
    ¬atTransaction .init (posn .delayLoop 0) bench
    ∧ ¬atTransaction (.write 0x39 0xFF 2) Ctx.fresh bench ∧ ¬atTransaction .setTimeout Ctx.fresh bench
    ∧ ∀ i, decode (issue 0x0000000C bench).cmd = .ok i → ¬atTransaction i Ctx.fresh bench :=
  ⟨fun h => h.1 (by decide), fun h => absurd (h.2 rfl).2.2 (by decide), fun h => h.2 rfl, fun _ h => nomatch h⟩
theorem witness_WaitIdleLoopsWhileBusy :
    (hosting .waitIdle bench).host.prog = .waitIdle :: []
      ∧ (hosting .waitIdle (issue 0x00000003 bench)).host.prog = .waitIdle :: [] := by decide

/-- Every kind of answer, the NACK at its last byte. -/
theorem witness_BusWriteOutcomes :
    (∃ s', busWrite 0x39 0x80 [1, 2] (onReference [] []) = some (.ack, s'))
    ∧ (onReference [] [some .silent]).target.nextAnswer.1 = some .silent
    ∧ (onReference [] [some (.nackAddr .nothing)]).target.nextAnswer.1 = some (.nackAddr .nothing)
    ∧ ((onReference [] [some (.nackByte 2 .nothing)]).target.nextAnswer.1 = some (.nackByte 2 .nothing) ∧ 2 ≤ [(1 : Byte), 2].length)
    ∧ (onReference [] [some (.ok [])]).target.nextAnswer.1 = some (.ok [])
    ∧ (onReference [] [some (.short [] .nothing)]).target.nextAnswer.1 = some (.short [] .nothing)
    ∧ (onReference [] []).target.nextAnswer.1 = none :=
  ⟨⟨_, rfl⟩, rfl, rfl, by decide, rfl, rfl, rfl⟩
theorem witness_BusReadOutcomes_reference : (onReference [] []).target.nextAnswer.1 = none
    ∧ (0x39 : BitVec 7) = (onReference [] []).params.devAddr ∧ (0x22 : BitVec 7) ≠ (onReference [] []).params.devAddr := by decide
theorem witness_BusReadOutcomes :
    (32 ≤ 32 ∧ ∃ s', busRead 0x39 0x80 2 (onReference [] [some (.ok [7])]) = some ((.short, [7]), s'))
    ∧ (∃ s', busRead 0x39 0x80 1 (onReference [(0x80, 7)] []) = some ((.none, [7]), s'))
    ∧ (∃ s', busRead 0x22 0x80 1 (onReference [] []) = some ((.nack, []), s'))
    ∧ (∃ s', busRead 0x39 0x80 2 (onReference [] [some (.short [7, 8] .nothing)]) = some ((.short, [7]), s'))
    ∧ (onReference [] [some (.nackByte 0 .nothing)]).target.nextAnswer.1 = some (.nackByte 0 .nothing) :=
  ⟨⟨le_refl _, _, rfl⟩, ⟨_, rfl⟩, ⟨_, rfl⟩, ⟨_, rfl⟩, rfl⟩
theorem witness_SilentTargetHoldsCommand :
    let s := running .init (posn .gainWrite 0) (onReference [] [some .silent])
    s.ctx = some (posn .gainWrite 0) ∧ (posn .gainWrite 0).seg ∈ segments .init
      ∧ s.target.nextAnswer.1 = some .silent
      ∧ (posn .gainWrite 0).seg ∉ [Seg.start, .delayStart, .delayLoop, .waitStart, .waitCheck] := by decide
/-- A first segment that makes a transaction: the largest gain code in bank 0. -/
theorem witness_SilentTargetHoldsCommand_start :
    let s := running .setGain Ctx.fresh ((inBank0 [] [some .silent]).setArg 12)
    s.ctx = some Ctx.fresh ∧ Ctx.fresh.seg ∈ segments .setGain ∧ s.target.nextAnswer.1 = some .silent
      ∧ Ctx.fresh.seg = .start ∧ (s.arg.extractLsb' 0 5).toNat ≤ 12 ∧ s.status.bank = 0b00 := by decide
theorem witness_ReferenceTargetReadsBackWrites :
    (onReference [] []).target.kind = .reference ∧ (onReference [] []).target.script = []
      ∧ 0x80 ≤ (0xE0 : BitVec 8).toNat ∧ (0xE0 : BitVec 8).toNat + (List.replicate 32 (5 : Byte)).length ≤ 256 := by decide
theorem witness_SensorEngineRegisters :
    let p := Params.withDefaults 9 5
    (∀ r ∈ [(0x90 : BitVec 8), 0x95, 0xB8],
      r = p.statusReg ∨ (p.dataBase.toNat ≤ r.toNat ∧ r.toNat ≤ p.dataBase.toNat + 35)) ∧
    (∀ a ∈ [(0x94 : BitVec 8), 0xB9], a ≠ p.statusReg ∧ ¬(p.dataBase.toNat ≤ a.toNat ∧ a.toNat ≤ p.dataBase.toNat + 35))
      ∧ (onReference [] []).target.kind = .reference := by decide

/-- A burst of 1 and a burst of 32 bytes that ends at 0xFF, acknowledged and not. -/
theorem witness_WriteCompletesWithBusOutcome :
    let s := running (.write 0x39 0xE0 32) Ctx.fresh (onReference [] [])
    let f := running (.write 0x39 0xFF 1) Ctx.fresh (onReference [] [some (.nackByte 1 .nothing)])
    (s.ctx = some Ctx.fresh ∧ Ctx.fresh.seg = .start ∧ 1 ≤ (32 : BitVec 6).toNat ∧ (32 : BitVec 6).toNat ≤ 32
      ∧ (0xE0 : BitVec 8).toNat + (32 : BitVec 6).toNat ≤ 256
      ∧ ∃ s', busWrite 0x39 0xE0 (s.buf.toList.take (32 : BitVec 6).toNat) s = some (.ack, s'))
    ∧ (f.ctx = some Ctx.fresh ∧ 1 ≤ (1 : BitVec 6).toNat ∧ (0xFF : BitVec 8).toNat + (1 : BitVec 6).toNat ≤ 256
      ∧ ∃ s', busWrite 0x39 0xFF (f.buf.toList.take (1 : BitVec 6).toNat) f = some (.nackData 1, s')) :=
  ⟨⟨rfl, rfl, by decide, by decide, by decide, _, rfl⟩, rfl, by decide, by decide, _, rfl⟩

/-- A burst whose last byte is the bank register, one that begins there and fails, and one that ends just below it. -/
theorem witness_RawWriteSnoop :
    let covers := fun (r : BitVec 8) (n : BitVec 6) => r.toNat ≤ bench.params.cfg0Reg.toNat
      ∧ bench.params.cfg0Reg.toNat ≤ r.toNat + n.toNat - 1
    let s := running (.write 0x39 0xBE 2) Ctx.fresh (onReference [] [])
    let f := running (.write 0x39 0xBF 1) Ctx.fresh (onReference [] [some (.nackAddr .nothing)])
    let u := running (.write 0x39 0xBD 2) Ctx.fresh (onReference [] [])
    (covers 0xBE 2 ∧ covers 0xBF 1 ∧ ¬covers 0xBD 2 ∧ (0x39 : BitVec 7) = bench.params.devAddr)
    ∧ (∃ s' t, busWrite 0x39 0xBE (s.buf.toList.take 2) s = some (.ack, s') ∧ exec (.write 0x39 0xBE 2) s = .next t)
    ∧ (∃ s' t, busWrite 0x39 0xBF (f.buf.toList.take 1) f = some (.nackAddr, s') ∧ exec (.write 0x39 0xBF 1) f = .next t)
    ∧ (∃ s' t, busWrite 0x39 0xBD (u.buf.toList.take 2) u = some (.ack, s') ∧ exec (.write 0x39 0xBD 2) u = .next t)
    ∧ (¬(1 ≤ (0 : BitVec 6).toNat) ∧ ∃ t, exec (.write 0x39 0xBF 0) s = .next t)
    ∧ ∃ t, exec (.read 0x39 0xBF 1) (running (.read 0x39 0xBF 1) Ctx.fresh (onReference [] [])) = .next t :=
  ⟨by decide, ⟨_, _, rfl, rfl⟩, ⟨_, _, rfl, rfl⟩, ⟨_, _, rfl, rfl⟩, ⟨by decide, _, rfl⟩, _, rfl⟩
theorem witness_ReadFillsBufferAndCompletes :
    let s := running (.read 0x39 0xE0 32) Ctx.fresh (onReference [] [some (.ok [1, 2])])
    s.ctx = some Ctx.fresh ∧ Ctx.fresh.seg = .start ∧ (32 : BitVec 6).toNat ≤ 32
      ∧ (0xE0 : BitVec 8).toNat + (32 : BitVec 6).toNat ≤ 256
      ∧ ∃ s', busRead 0x39 0xE0 (32 : BitVec 6).toNat s = some ((.short, [1, 2]), s') :=
  ⟨rfl, rfl, by decide, by decide, _, rfl⟩

/-- Each range at its first value outside, and a run that the last clause speaks of. -/
theorem witness_ArgumentChecks :
    let s := running .setGain Ctx.fresh (bench.setArg 13)
    (s.ctx = some Ctx.fresh ∧ Ctx.fresh.seg = .start)
    ∧ ((0 : BitVec 6).toNat = 0 ∧ 32 < (33 : BitVec 6).toNat ∧ 0xFF < (0xFF : BitVec 8).toNat + (2 : BitVec 6).toNat - 1)
    ∧ 12 < (s.arg.extractLsb' 0 5).toNat
    ∧ s.status.err ≠ ErrCode.badarg.code
    ∧ ∃ t, exec .setGain s = .next t ∧ t.status.err = ErrCode.badarg.code :=
  ⟨by decide, by decide, by decide, by decide, _, rfl, rfl⟩

/-- Any position, and one byte read or written at any register of the default map: answered in full, and failed. The
hypotheses of the statements about read-modify-writes and one-byte writes. -/
theorem witness_one_byte_transactions (i : Instr) (g : Seg) (v : Byte) :
    (running i (posn g v) (onReference [] [])).ctx = some (posn g v) ∧ (posn g v).seg = g
    ∧ (∃ s', busRead 0x39 0xBF 1 (running i (posn g v) (onReference [(0xBF, 4)] [])) = some ((.none, [4]), s'))
    ∧ (∃ s', busRead 0x39 0xBF 1 (running i (posn g v) (onReference [] [some (.nackAddr .nothing)])) = some ((.nack, []), s'))
    ∧ (∃ s', busWrite 0x39 0xBF [v] (running i (posn g v) (onReference [] [])) = some (.ack, s'))
    ∧ ∃ s', busWrite 0x39 0xBF [v] (running i (posn g v) (onReference [] [some (.nackByte 1 .nothing)])) = some (.nackData 1, s') :=
  ⟨rfl, rfl, ⟨_, rfl⟩, ⟨_, rfl⟩, ⟨_, rfl⟩, _, rfl⟩

theorem witness_SetBankSelectsArgBit : ∀ g ∈ [Seg.start, .bankWrite],
    let s := running .setBank (posn g 0x24) ((onReference [(0xBF, 0x24)] []).setArg 1)
    s.ctx = some (posn g 0x24) ∧ g ∈ segments .setBank
      ∧ (busRead s.params.devAddr s.params.cfg0Reg 1 s).isSome = true
      ∧ (busWrite s.params.devAddr s.params.cfg0Reg [0x34] s).isSome = true := by decide
theorem witness_IsConnectedKeepsFirstFailure : ∀ g ∈ segments .isConnected,
    let s := running .isConnected (posn g 0x10) (onReference [(0xBF, 0x10)] [])
    s.ctx = some (posn g 0x10) ∧ (busRead s.params.devAddr s.params.cfg0Reg 1 s).isSome = true
      ∧ (busRead s.params.devAddr s.params.idReg 1 s).isSome = true
      ∧ (busWrite s.params.devAddr s.params.cfg0Reg [0x10] s).isSome = true := by decide
theorem witness_InitRunsItsSequence : ∀ g ∈ segments .init,
    let s := running .init (posn g 0x80) (onReference [(0x80, 0x80), (0xBF, 0), (0xC6, 9), (0xD6, 0)] [])
    s.ctx = some (posn g 0x80) ∧ (∀ r ∈ [s.params.cfg0Reg, s.params.enableReg, s.params.smuxReg, s.params.gainReg],
      (busRead s.params.devAddr r 1 s).isSome = true ∧ (busWrite s.params.devAddr r [0x81] s).isSome = true) := by decide
/-- The delay loop at the last value before its end and at its end. -/
theorem witness_InitRunsItsSequence_delay :
    ¬((5 : Word).toNat ≤ ((4 : Word) - 0).toNat) ∧ (5 : Word).toNat ≤ ((5 : Word) - 0).toNat := by decide

/-- The clauses of `SET_GAIN`: code 13 in any bank; code 12 outside bank 0; code 12 in bank 0; and the write. -/
theorem witness_SetGainChecksThenWritesField :
    let s := running .setGain Ctx.fresh (bench.setArg 13)
    let b := running .setGain Ctx.fresh (bench.setArg 12)
    let k := running .setGain Ctx.fresh ((inBank0 [(0xC6, 0xA7)] []).setArg 12)
    let w := running .setGain (posn .gainWrite 0xA7) ((inBank0 [(0xC6, 0xA7)] []).setArg 12)
    (s.ctx = some Ctx.fresh ∧ 12 < (s.arg.extractLsb' 0 5).toNat)
      ∧ (b.ctx = some Ctx.fresh ∧ (b.arg.extractLsb' 0 5).toNat ≤ 12 ∧ b.status.bank ≠ 0b00)
      ∧ (k.ctx = some Ctx.fresh ∧ (k.arg.extractLsb' 0 5).toNat ≤ 12 ∧ k.status.bank = 0b00
        ∧ (busRead k.params.devAddr k.params.gainReg 1 k).isSome = true)
      ∧ (w.ctx = some (posn .gainWrite 0xA7) ∧ (busWrite w.params.devAddr w.params.gainReg [0xAC] w).isSome = true) := by
  decide
theorem witness_SetGainOnReferenceTarget :
    let s := (running .setGain Ctx.fresh ((inBank0 [(0xC6, 0xA7)] []).setArg 12)).setAgenda [.ctrl, .ctrl]
    s.status.busy = true ∧ decode s.cmd = .ok .setGain ∧ s.ctx = some Ctx.fresh ∧ s.agenda = .ctrl :: .ctrl :: []
      ∧ s.target.kind = .reference ∧ s.target.script = [] ∧ s.params.wf = true ∧ s.status.bank = 0b00
      ∧ (s.arg.extractLsb' 0 5).toNat ≤ 12 ∧ s.target.regs.read s.params.gainReg.toNat = some 0xA7 := by decide
theorem witness_SetItimeWritesThreeBytes :
    let f := running .setItime Ctx.fresh bench
    (f.ctx = some Ctx.fresh ∧ f.status.bank ≠ 0b00)
    ∧ ∀ g ∈ segments .setItime,
      let s := running .setItime (posn g 0) ((inBank0 [] []).setArg 0x004E2001)
      s.ctx = some (posn g 0) ∧ s.status.bank = 0b00 ∧ (busWrite s.params.devAddr s.params.atimeReg [1] s).isSome = true
        ∧ (busWrite s.params.devAddr s.params.astepReg [0x20] s).isSome = true
        ∧ (busWrite s.params.devAddr (s.params.astepReg + 1) [0x4E] s).isSome = true := by decide
theorem witness_SetItimeOnReferenceTarget :
    let s := (running .setItime Ctx.fresh ((inBank0 [] []).setArg 0x004E2001)).setAgenda [.ctrl, .ctrl, .ctrl]
    s.status.busy = true ∧ decode s.cmd = .ok .setItime ∧ s.ctx = some Ctx.fresh
      ∧ s.agenda = .ctrl :: .ctrl :: .ctrl :: [] ∧ s.target.kind = .reference ∧ s.target.script = []
      ∧ s.params.wf = true ∧ s.status.bank = 0b00 ∧ s.result.txcount = 0 := by decide
theorem witness_SetTimeoutStoresArg :
    (running .setTimeout Ctx.fresh bench).ctx = some Ctx.fresh ∧ Ctx.fresh.seg = .start := by decide

/-- The time check one millisecond before the deadline and at it; a poll with the ready bit set and one without. -/
theorem witness_WaitDataReadyPollsInsideWindow :
    (∀ g ∈ segments .waitDataReady, (running .waitDataReady (posn g 0) bench).ctx = some (posn g 0) ∧ (posn g 0).seg = g)
    ∧ ¬((50 : Word).toNat ≤ ((49 : Word) - 0).toNat) ∧ (50 : Word).toNat ≤ ((50 : Word) - 0).toNat
    ∧ (∀ v ∈ [(0x40 : Byte), 0xBF],
      let s := running .waitDataReady (posn .poll 0) (onReference [(0x90, v)] [])
      (busRead s.params.devAddr s.params.statusReg 1 s).map (fun x => x.1) = some (.none, [v]))
    ∧ (0x40 : Byte).getLsbD bench.params.avalidBit.val = true ∧ (0xBF : Byte).getLsbD bench.params.avalidBit.val = false := by
  decide
theorem witness_ReadingSelectsBankThenWaits : ∀ i ∈ [Instr.readAll, .getSorted], ∀ g ∈ segments i,
    let s := running i (posn g 0x10) (onReference [(0x90, 0x40), (0xBF, 0x10)] [])
    (i = .readAll ∨ i = .getSorted) ∧ s.ctx = some (posn g 0x10)
      ∧ (busRead s.params.devAddr s.params.cfg0Reg 1 s).isSome = true
      ∧ (busWrite s.params.devAddr s.params.cfg0Reg [0x00] s).isSome = true
      ∧ (busRead s.params.devAddr s.params.statusReg 1 s).isSome = true := by decide

/-- The first channel, the last but one and the last, read in full and failed. -/
theorem witness_ChannelReadFillsOneChannel : ∀ i ∈ [Instr.readAll, .getSorted], ∀ k ∈ [(0 : Fin 18), 16, 17],
    ∀ d ∈ [Draw.ok [1, 2], .nackAddr .nothing, .short [1] .nothing],
    let c := { posn .channel 0 with i := k }
    let s := running i c (onReference [] [some d])
    (i = .readAll ∨ i = .getSorted) ∧ s.ctx = some c ∧ c.seg = .channel
      ∧ (busRead s.params.devAddr (s.params.dataBase + BitVec.ofNat 8 (2 * c.i.val)) 2 s).isSome = true := by decide
theorem witness_SortedViewIsPurePermutation :
    let s := running .getSorted { posn .channel 0 with i := 17 }
      ((inBank0 [(0xB7, 17), (0xB8, 0)] []).setCh (Vector.ofFn fun k => BitVec.ofNat 16 k.val))
    s.status.busy = true ∧ seen (exec .getSorted s) (fun t => (t.status.busy, t.status.ok, t.ch))
      = some (false, true, Vector.ofFn fun k => BitVec.ofNat 16 k.val) := by decide
theorem witness_GetSortedWholeCommand :
    let script := some (.ok [0x10]) :: some (.ok []) :: some (.ok [0x40])
      :: (List.ofFn fun k : Fin 18 => some (Draw.ok [BitVec.ofNat 8 k.val, 0])) ++ []
    let s := ((running .getSorted Ctx.fresh (onReference [] script)).setTimeout 1).setAgenda
      (List.replicate 23 .ctrl ++ [.clock])
    s.status.busy = true ∧ decode s.cmd = .ok .getSorted ∧ s.ctx = some Ctx.fresh ∧ s.result.txcount = 0 ∧ s.timeout ≠ 0
      ∧ (0x40 : Byte).getLsbD s.params.avalidBit.val = true ∧ s.agenda = List.replicate 23 .ctrl ++ [.clock]
      ∧ s.target.script = script := by decide

/-- All three kinds of identity answer. -/
theorem witness_IsConnectedAlwaysRestoresBankZero : ∀ id ∈ [Draw.ok [0x81], .ok [], .short [] .nothing, .nackAddr .nothing],
    let script := some (.ok [0]) :: some (.ok []) :: some id :: some (.ok [0x10]) :: some (.ok []) :: []
    let s := (running .isConnected Ctx.fresh (onReference [] script)).setAgenda (List.replicate 5 .ctrl ++ [])
    s.status.busy = true ∧ decode s.cmd = .ok .isConnected ∧ s.ctx = some Ctx.fresh ∧ s.result.txcount = 0
      ∧ s.agenda = List.replicate 5 .ctrl ++ [] ∧ id ≠ .silent ∧ s.target.script = script
      ∧ s.target.kind = .reference ∧ 0x80 ≤ s.params.cfg0Reg.toNat := by decide

/-- A segment that answers next: the hypothesis of the frames. -/
theorem witness_frames :
    (∃ t, exec .setTimeout (running .setTimeout Ctx.fresh bench) = .next t)
    ∧ (∃ t, exec .setItime (running .setItime (posn .astepLow 0) (inBank0 [] [])) = .next t)
    ∧ (∃ t, exec .isConnected (running .isConnected (posn .idRead 0) (onReference [] [])) = .next t)
    ∧ ∃ t, exec .getSorted (running .getSorted { posn .channel 0 with i := 17 } (onReference [] [])) = .next t :=
  ⟨⟨_, rfl⟩, ⟨_, rfl⟩, ⟨_, rfl⟩, _, rfl⟩
/-- The registers just below and just above the one stored, where the write is answered and where it fails elsewhere. -/
theorem witness_SegmentsStoreOnlyTheirSpan : ∀ script ∈ [[], [some (Draw.nackByte 1 { stores := [(0xC8, 1)], ptr := none })]],
    ∀ a ∈ [0xC5, 0xC7],
      let s := running .setGain (posn .gainWrite 0xA7) (inBank0 [(0xC6, 0xA7)] script)
      let span := storedSpan .setGain (posn .gainWrite 0xA7) s
      s.ctx = some (posn .gainWrite 0xA7) ∧ (seen (exec .setGain s) fun _ => ()) = some ()
        ∧ (a < span.1 ∨ span.1 + span.2 ≤ a) ∧ notLeftOver a s := by
  simp only [List.forall_mem_cons, List.not_mem_nil, false_implies, implies_true, and_true]
  refine ⟨⟨⟨rfl, rfl, .inl (by decide), ?_⟩, rfl, rfl, .inr (by decide), ?_⟩,
    ⟨rfl, rfl, .inl (by decide), ?_⟩, rfl, rfl, .inr (by decide), ?_⟩
  · intro d hd; cases hd
  · intro d hd; cases hd
  · intro d hd x hx; cases Option.some.inj hd; cases List.mem_singleton.mp hx; decide
  · intro d hd x hx; cases Option.some.inj hd; cases List.mem_singleton.mp hx; decide

/-- A `WRITE` to another address and one that fails its check: no register is in the span. -/
theorem witness_SegmentsStoreOnlyTheirSpan_write :
    ∀ x ∈ [((0x22 : BitVec 7), (0x80 : BitVec 8), (1 : BitVec 6)), (0x39, 0xFF, 2), (0x39, 0x80, 0)],
      let s := running (.write x.1 x.2.1 x.2.2) Ctx.fresh (onReference [(0x80, 5)] [])
      storedSpan (.write x.1 x.2.1 x.2.2) Ctx.fresh s = (0, 0) ∧ s.target.nextAnswer.1 = none
        ∧ (seen (exec (.write x.1 x.2.1 x.2.2) s) fun t => t.target.regs) = some [(0x80, 5)] := by
  simp only [List.forall_mem_cons, List.not_mem_nil, false_implies, implies_true, and_true]
  exact ⟨⟨rfl, rfl, rfl⟩, ⟨rfl, rfl, rfl⟩, rfl, rfl, rfl⟩
/-- Another address: acknowledged by a draw, and refused with a draw that lists stores and a pointer. -/
theorem witness_OtherAddressesLeaveDevice :
    ∀ d ∈ [Draw.ok [7], .nackByte 1 { stores := [(0x80, 9)], ptr := some 3 }],
      let s := onReference [(0x80, 5)] [some d]
      (0x22 : BitVec 7) ≠ s.params.devAddr ∧ (busWrite 0x22 0x80 [1] s).isSome = true ∧ (busRead 0x22 0x80 1 s).isSome = true
        ∧ (seen (exec (.write 0x22 0x80 1) (running (.write 0x22 0x80 1) Ctx.fresh s)) fun t => t.target.regs) = some [(0x80, 5)]
        ∧ (seen (exec (.read 0x22 0x80 1) (running (.read 0x22 0x80 1) Ctx.fresh s)) fun t => t.target.regs)
          = some [(0x80, 5)] := by decide
/-- The last data register, in a command; and a power cycle there. -/
theorem witness_TargetEventsChangeOnlyTarget :
    let s := issue 0x0000000B (onReference [(0x90, 0)] [])
    (s.setAgenda [.engine 0xB8 7]).agenda = .engine 0xB8 7 :: [] ∧ (s.setAgenda [.powerCycle]).agenda = .powerCycle :: []
      ∧ (seen (step (s.setAgenda [.engine 0xB8 7])) fun t => (t.target.regs, t.status)) = some ([(0x90, 0), (0xB8, 7)], s.status)
      ∧ (seen (step (s.setAgenda [.powerCycle])) fun t => (t.target.regs, t.status)) = some ([], s.status) :=
  ⟨rfl, rfl, rfl, rfl⟩

/-- A command in progress meets the invariant: at its first statement, and inside a reading. -/
theorem witness_running_inv :
    (running .setGain Ctx.fresh (onReference [(0xC6, 0xA7)] [])).Inv
      ∧ (running .getSorted (posn .channel 0) (onReference [(0x90, 0x40)] [])).Inv := by
  refine ⟨⟨⟨rfl, ?_, ?_, ?_⟩, ⟨?_, ?_, ?_, ?_⟩, ?_, ?_⟩, ⟨⟨rfl, ?_, ?_, ?_⟩, ⟨?_, ?_, ?_, ?_⟩, ?_, ?_⟩⟩
  · show Seg.start ∈ segments .setGain; decide
  · exact fun h => absurd h (by decide)
  · show (0 : BitVec 4) ∈ identityCodes; decide
  · decide
  · decide
  · decide
  · decide
  · exact fun h => absurd h (by decide)
  · exact ⟨rfl, rfl, rfl, rfl⟩
  · show Seg.channel ∈ segments .getSorted; decide
  · exact fun _ _ => ⟨rfl, rfl⟩
  · show (0 : BitVec 4) ∈ identityCodes; decide
  · decide
  · decide
  · decide
  · decide
  · exact fun h => absurd h (by decide)
  · exact ⟨rfl, rfl, rfl, rfl⟩

/-- The same state and a segment that completes the command. -/
theorem witness_FailureCodesByCommand :
    let s := running .setGain Ctx.fresh (onReference [(0xC6, 0xA7)] [])
    s.Inv ∧ s.status.busy = true ∧ ∃ t, exec .setGain s = .next t ∧ t.status.busy = false :=
  ⟨witness_running_inv.1, rfl, _, rfl, rfl⟩
theorem witness_EveryPositionAnswers :
    let s := running .getSorted (posn .channel 0) (onReference [(0x90, 0x40)] [])
    s.ctx = some (posn .channel 0) ∧ (posn .channel 0).seg ∈ segments .getSorted ∧ s.Inv :=
  ⟨rfl, by decide, witness_running_inv.2⟩
/-- A step with `CTRL` on the agenda from a state that meets the invariant. -/
theorem witness_StepKeepsInvariant :
    let s := (running .setGain Ctx.fresh (onReference [(0xC6, 0xA7)] [])).setAgenda [.ctrl]
    s.Inv ∧ ∃ t, step s = .next t :=
  ⟨witness_running_inv.1, _, rfl⟩
/-- A command ended by completion, and one ended by reset. -/
theorem witness_CommandEndsByCompletionOrReset :
    (let s := (running .setGain Ctx.fresh (onReference [(0xC6, 0xA7)] [])).setAgenda [.ctrl]
     s.Inv ∧ s.status.busy = true ∧ ∃ t, step s = .next t ∧ t.status.busy = false)
    ∧ (let s := hosting (.reset .nothing) (running .setGain Ctx.fresh (onReference [(0xC6, 0xA7)] []))
       s.Inv ∧ s.status.busy = true ∧ ∃ t, step s = .next t ∧ t.status.busy = false) :=
  ⟨⟨witness_running_inv.1, rfl, _, rfl, rfl⟩, witness_running_inv.1, rfl, _, rfl, rfl⟩
/-- Bursts across 0x80, in either bank; the register on each side of it. -/
theorem witness_ReferenceTargetResolvesByBank : ∀ cfg0 ∈ [(0x00 : Byte), 0x10],
    let s := onReference [(0xBF, cfg0)] []
    s.target.kind = .reference ∧ s.target.script = [] ∧ 0x80 ≤ s.params.cfg0Reg.toNat
      ∧ (s.target.reg s.params.cfg0Reg).getLsbD s.params.bankBit.val = decide (cfg0 = 0x10)
      ∧ (0x7F : BitVec 8).toNat + [(1 : Byte), 2].length ≤ 256 ∧ (0x7F : BitVec 8).toNat = (0x7F : BitVec 8).toNat + 0
      ∧ (0x80 : BitVec 8).toNat = (0x7F : BitVec 8).toNat + 1 := by decide
theorem witness_OpenTurnsAreFair :
    let s := running .getSorted (posn .channel 0) (onReference [(0x90, 0x40)] [])
    s.Inv ∧ s.agenda = [] := ⟨witness_running_inv.2, rfl⟩
/-- Reset at the first transaction of `INIT`, at a later one of it, and at that of a raw command. -/
theorem witness_FailedTransactionLeavesAnyState :
    (∀ x ∈ [(Instr.init, Seg.start), (.init, .gainWrite), (.read 0x39 0xFF 1, .start)],
      let s := running x.1 (posn x.2 0) (onReference [] [])
      s.target.kind = .reference ∧ 0x80 ≤ s.params.cfg0Reg.toNat ∧ s.status.busy = true ∧ decode s.cmd = .ok x.1
        ∧ s.ctx = some (posn x.2 0) ∧ pendingAddress s = some s.params.devAddr ∧ 0 ≤ ([] : List Byte).length)
    ∧ atTransaction .init Ctx.fresh bench ∧ atTransaction .init (posn .gainWrite 0) bench
    ∧ atTransaction (.read 0x39 0xFF 1) Ctx.fresh bench
    ∧ ∀ a r n, Instr.read 0x39 0xFF 1 = .write a r n ∨ Instr.read 0x39 0xFF 1 = .read a r n → a = bench.params.devAddr :=
  ⟨by decide, ⟨by decide, fun _ => trivial⟩, ⟨by decide, fun h => nomatch h⟩, ⟨by decide, fun _ => ⟨by decide, by decide, by decide⟩⟩,
    fun _ _ _ h => by rcases h with h | h <;> cases h; rfl⟩
/-- A turn of `CLOCK` on the agenda; and an open turn after as many as any round gives `CTRL`, which `CLOCK` takes. -/
theorem witness_OnlyClockWritesTime :
    (∃ t, step (bench.setAgenda [.clock]) = .next t)
    ∧ let s := bench.setSpent ((Config.freeRound 0).1 + 1)
      s.agenda = [] ∧ (Config.freeRound s.rounds).1 < s.spent := ⟨⟨_, rfl⟩, rfl, Nat.lt_succ_self _⟩

end Sys2Proof.Tests
end

section
/-! SUPPORT. The frame of every segment (00_scope.md R6, 10_state.md R24, R32): one rule per ending of a segment and one per way
to run it, so that each command's frame is read off its own positions. -/

namespace Sys2Proof.Machine

/-! What `HOST`, `CLOCK`, the agenda and the parameters own. -/

@[refl] theorem sameOutside.refl (s : State) : sameOutside s s := ⟨rfl, rfl, rfl, rfl, rfl, rfl, rfl, rfl, rfl⟩

theorem sameOutside.trans {s t u : State} (h : sameOutside s t) (h' : sameOutside t u) : sameOutside s u := by
  obtain ⟨h1, h2, h3, h4, h5, h6, h7, h8, h9⟩ := h
  obtain ⟨g1, g2, g3, g4, g5, g6, g7, g8, g9⟩ := h'
  exact ⟨g1.trans h1, g2.trans h2, g3.trans h3, g4.trans h4, g5.trans h5, g6.trans h6, g7.trans h7, g8.trans h8, g9.trans h9⟩

/-- An operation of the controller that leaves alone what the other agents own, from every state. -/
def KeepsOutside (k : State → State) : Prop := ∀ s, sameOutside s (k s)

/-- A segment run from `s` that leaves alone what the other agents own, if it answers next. -/
def NextKeepsOutside (s : State) (o : Out) : Prop := ∀ t, o = .next t → sameOutside s t

/-! The operations that end a segment. -/

theorem KeepsOutside.comp {f g : State → State} (hf : KeepsOutside f) (hg : KeepsOutside g) :
    KeepsOutside fun s => g (f s) := fun s => (hf s).trans (hg (f s))

/-- Both branches of a test in the rest of a segment. -/
theorem keepsOutside_ite {p : Prop} [Decidable p] {f g : State → State} (hf : KeepsOutside f) (hg : KeepsOutside g) :
    KeepsOutside fun s => if p then f s else g s := by
  intro s
  dsimp only
  split
  · exact hf s
  · exact hg s

/-- A change of `STATUS` that keeps `WERR` (10_state.md R32). -/
theorem keepsOutside_setStatus {f : State → Status} (hf : ∀ s, (f s).werr = s.status.werr) :
    KeepsOutside fun s => s.setStatus (f s) := fun s => ⟨rfl, rfl, rfl, rfl, rfl, rfl, rfl, rfl, hf s⟩

theorem keepsOutside_setTimeout (f : State → Word) : KeepsOutside fun s => s.setTimeout (f s) := fun s => .refl s

theorem keepsOutside_setResult (f : State → Result) : KeepsOutside fun s => s.setResult (f s) := fun s => .refl s

theorem keepsOutside_setBuf (f : State → Vector Byte 32) : KeepsOutside fun s => s.setBuf (f s) := fun s => .refl s

theorem keepsOutside_setCh (f : State → Vector Half 18) : KeepsOutside fun s => s.setCh (f s) := fun s => .refl s

theorem keepsOutside_setSorted (f : State → Vector Half 12) : KeepsOutside fun s => s.setSorted (f s) := fun s => .refl s

theorem keepsOutside_setCtx (x : Option Ctx) : KeepsOutside fun s => s.setCtx x := fun s => .refl s

theorem keepsOutside_resume (c : Ctx) : KeepsOutside (resume c) := keepsOutside_setCtx (some c)

theorem keepsOutside_complete (ok : Bool) (code : BitVec 4) : KeepsOutside (complete ok code) :=
  (keepsOutside_setStatus fun s => Status.completed_werr s.status ok code).comp (keepsOutside_setCtx none)

theorem keepsOutside_fail (code : ErrCode) : KeepsOutside (fail code) := keepsOutside_complete false code.code

theorem keepsOutside_succeed : KeepsOutside succeed := keepsOutside_complete true ErrCode.none.code

theorem keepsOutside_setMirror (m : BitVec 2) : KeepsOutside (setMirror m) :=
  keepsOutside_setStatus fun s => Status.setBank_werr s.status m

theorem keepsOutside_snoop (a : BitVec 7) (r : BitVec 8) (n : BitVec 6) (o : WriteOutcome) : KeepsOutside (snoop a r n o) :=
  fun s => snoop_mirror a r n o s ▸ keepsOutside_setMirror _ s

theorem keepsOutside_startReading : KeepsOutside startReading :=
  keepsOutside_setStatus fun s => Status.readingStarted_werr s.status

theorem keepsOutside_validateChannels : KeepsOutside validateChannels :=
  keepsOutside_setStatus fun s => Status.setChValid_werr s.status true

theorem keepsOutside_sortChannels : KeepsOutside sortChannels :=
  (keepsOutside_setSorted fun s => sortedView s.ch).comp
    (keepsOutside_setStatus fun s => Status.setSortedValid_werr s.status true)

theorem keepsOutside_storeChannel (c : Ctx) {finish : State → State} (hf : KeepsOutside finish) (bytes : List Byte) :
    KeepsOutside (storeChannel c finish bytes) := by
  intro s
  unfold storeChannel
  have hch := keepsOutside_setCh (fun s => s.ch.set c.i.val (littleEndian (bytes.getD 0 0) (bytes.getD 1 0)) c.i.isLt) s
  dsimp only
  split
  · exact hch.trans (keepsOutside_resume _ _)
  · exact hch.trans (hf _)

theorem keepsOutside_finishIdentity (c : Ctx) (c3 : ErrCode) : KeepsOutside (finishIdentity c c3) :=
  keepsOutside_complete _ _

/-! The ways to run a segment. -/

theorem nextKeepsOutside_next {s t : State} (h : sameOutside s t) : NextKeepsOutside s (.next t) := by
  intro u hu; cases hu; exact h

theorem nextKeepsOutside_fault (s : State) (f : Fault) : NextKeepsOutside s (.fault f) := by
  intro t ht; cases ht

theorem inCommand_keepsOutside {s : State} {k : Ctx → Out} (hk : ∀ c, NextKeepsOutside s (k c)) :
    NextKeepsOutside s (inCommand s k) := by
  intro t ht
  obtain ⟨c, -, hc⟩ := inCommand_next ht
  exact hk c t hc

theorem onWrite_keepsOutside {a : BitVec 7} {r : BitVec 8} {bytes : List Byte} {s : State}
    {k : WriteOutcome → State → State} (hk : ∀ o, KeepsOutside (k o)) : NextKeepsOutside s (onWrite a r bytes s k) := by
  intro t ht
  refine onWrite_elim ht (.refl s) fun o s' hw => ?_
  obtain ⟨-, -, -, hs, -⟩ := busWrite_same hw
  exact hs.trans (hk o s')

theorem onRead_keepsOutside {a : BitVec 7} {r : BitVec 8} {n : Nat} {s : State} {k : ErrCode → List Byte → State → State}
    (hk : ∀ code bytes, KeepsOutside (k code bytes)) : NextKeepsOutside s (onRead a r n s k) := by
  intro t ht
  refine onRead_elim ht (.refl s) fun code bytes s' hr => ?_
  obtain ⟨-, -, -, hs⟩ := busRead_same hr
  exact hs.trans (hk code bytes s')

theorem wr_keepsOutside {r : BitVec 8} {bytes : List Byte} {s : State} {k : State → State} (hk : KeepsOutside k) :
    NextKeepsOutside s (wr r bytes s k) :=
  onWrite_keepsOutside fun _ => keepsOutside_ite hk (keepsOutside_fail .nack)

theorem rd_keepsOutside {r : BitVec 8} {n : Nat} {s : State} {k : List Byte → State → State}
    (hk : ∀ bytes, KeepsOutside (k bytes)) : NextKeepsOutside s (rd r n s k) :=
  onRead_keepsOutside fun code bytes => keepsOutside_ite (hk bytes) (keepsOutside_fail code)

theorem rmwRead_keepsOutside (r : BitVec 8) (next : Seg) (c : Ctx) (s : State) :
    NextKeepsOutside s (rmwRead r next c s) := rd_keepsOutside fun _ => keepsOutside_resume _

theorem rmwWrite_keepsOutside {r : BitVec 8} {clear set : Byte} {c : Ctx} {s : State} {k : State → State}
    (hk : KeepsOutside k) : NextKeepsOutside s (rmwWrite r clear set c s k) := wr_keepsOutside hk

theorem selectBankRead_keepsOutside (next : Seg) (c : Ctx) (s : State) : NextKeepsOutside s (selectBankRead next c s) :=
  rmwRead_keepsOutside _ next c s

theorem tryBankRead_keepsOutside {s : State} {k : ErrCode → Byte → State → State}
    (hk : ∀ code v, KeepsOutside (k code v)) : NextKeepsOutside s (tryBankRead s k) :=
  onRead_keepsOutside fun code bytes => hk code (bytes.headD 0)

theorem tryBankWrite_keepsOutside {b : BitVec 1} {c : Ctx} {s : State} {k : ErrCode → State → State}
    (hk : ∀ code, KeepsOutside (k code)) : NextKeepsOutside s (tryBankWrite b c s k) :=
  onWrite_keepsOutside fun _ =>
    keepsOutside_ite ((keepsOutside_setMirror _).comp (hk _)) ((keepsOutside_setMirror _).comp (hk _))

theorem selectBankWrite_keepsOutside {b : BitVec 1} {c : Ctx} {s : State} {k : State → State} (hk : KeepsOutside k) :
    NextKeepsOutside s (selectBankWrite b c s k) :=
  tryBankWrite_keepsOutside fun code => keepsOutside_ite hk (keepsOutside_fail code)

theorem latchNow_keepsOutside (next : Seg) (c : Ctx) (s : State) : NextKeepsOutside s (latchNow next c s) :=
  nextKeepsOutside_next (keepsOutside_resume _ s)

theorem delayCheck_keepsOutside (d : Word) (next : Seg) (c : Ctx) (s : State) :
    NextKeepsOutside s (delayCheck d next c s) := nextKeepsOutside_next (keepsOutside_resume _ s)

theorem waitTimeCheck_keepsOutside (c : Ctx) (s : State) : NextKeepsOutside s (waitTimeCheck c s) :=
  nextKeepsOutside_next (keepsOutside_ite (keepsOutside_fail .timeout) (keepsOutside_resume _) s)

theorem waitPoll_keepsOutside {c : Ctx} {s : State} {k : State → State} (hk : KeepsOutside k) :
    NextKeepsOutside s (waitPoll c s k) :=
  rd_keepsOutside fun _ => keepsOutside_ite hk (keepsOutside_resume _)

/-! The commands, by their positions (30_encoding.md R107). -/

theorem execWrite_keepsOutside (a : BitVec 7) (r : BitVec 8) (n : BitVec 6) (s : State) :
    NextKeepsOutside s (execWrite a r n s) := by
  refine inCommand_keepsOutside fun c => ?_
  split
  · split
    · exact onWrite_keepsOutside fun o => keepsOutside_ite ((keepsOutside_snoop a r n o).comp keepsOutside_succeed)
        ((keepsOutside_snoop a r n o).comp (keepsOutside_fail .nack))
    · exact nextKeepsOutside_next (keepsOutside_fail .badarg s)
  · exact nextKeepsOutside_fault s _

theorem execRead_keepsOutside (a : BitVec 7) (r : BitVec 8) (n : BitVec 6) (s : State) :
    NextKeepsOutside s (execRead a r n s) := by
  have hfill (bytes : List Byte) := keepsOutside_setBuf fun s' => bufFill s'.buf bytes
  refine inCommand_keepsOutside fun c => ?_
  split
  · split
    · exact onRead_keepsOutside fun code bytes =>
        keepsOutside_ite ((hfill bytes).comp keepsOutside_succeed) ((hfill bytes).comp (keepsOutside_fail code))
    · exact nextKeepsOutside_next (keepsOutside_fail .badarg s)
  · exact nextKeepsOutside_fault s _

theorem execSetBank_keepsOutside (s : State) : NextKeepsOutside s (execSetBank s) := by
  refine inCommand_keepsOutside fun c => ?_
  cases c.seg with
  | start => exact selectBankRead_keepsOutside .bankWrite c s
  | bankWrite => exact selectBankWrite_keepsOutside keepsOutside_succeed
  | _ => exact nextKeepsOutside_fault s _

theorem execIsConnected_keepsOutside (s : State) : NextKeepsOutside s (execIsConnected s) := by
  refine inCommand_keepsOutside fun c => ?_
  cases c.seg with
  | start => exact tryBankRead_keepsOutside fun _ _ => keepsOutside_ite (keepsOutside_resume _) (keepsOutside_resume _)
  | bankWrite => exact tryBankWrite_keepsOutside fun _ => keepsOutside_ite (keepsOutside_resume _) (keepsOutside_resume _)
  | idRead =>
    exact onRead_keepsOutside fun _ bytes => keepsOutside_ite
      ((keepsOutside_setResult fun s' => s'.result.setIdValue (bytes.headD 0)).comp (keepsOutside_resume _))
      (keepsOutside_resume _)
  | backRead =>
    exact tryBankRead_keepsOutside fun code _ =>
      keepsOutside_ite (keepsOutside_resume _) (keepsOutside_finishIdentity c code)
  | backWrite => exact tryBankWrite_keepsOutside (keepsOutside_finishIdentity c)
  | _ => exact nextKeepsOutside_fault s _

theorem execInit_keepsOutside (s : State) : NextKeepsOutside s (execInit s) := by
  refine inCommand_keepsOutside fun c => ?_
  cases c.seg with
  | start => exact selectBankRead_keepsOutside .bankWrite c s
  | bankWrite => exact selectBankWrite_keepsOutside (keepsOutside_resume _)
  | delayStart => exact latchNow_keepsOutside .delayLoop c s
  | delayLoop => exact delayCheck_keepsOutside s.params.stabDelayMs .smuxRead c s
  | ponRead | smuxRead | gainRead | spenRead => exact rmwRead_keepsOutside _ _ c s
  | ponWrite | smuxWrite | gainWrite => exact rmwWrite_keepsOutside (keepsOutside_resume _)
  | spenWrite => exact rmwWrite_keepsOutside keepsOutside_succeed
  | _ => exact nextKeepsOutside_fault s _

theorem execSetGain_keepsOutside (s : State) : NextKeepsOutside s (execSetGain s) := by
  refine inCommand_keepsOutside fun c => ?_
  split
  · split
    · exact nextKeepsOutside_next (keepsOutside_fail .badarg s)
    · split
      · exact nextKeepsOutside_next (keepsOutside_fail .bank s)
      · exact rmwRead_keepsOutside s.params.gainReg .gainWrite c s
  · exact rmwWrite_keepsOutside keepsOutside_succeed
  · exact nextKeepsOutside_fault s _

theorem execSetItime_keepsOutside (s : State) : NextKeepsOutside s (execSetItime s) := by
  refine inCommand_keepsOutside fun c => ?_
  split
  · split
    · exact nextKeepsOutside_next (keepsOutside_fail .bank s)
    · exact wr_keepsOutside (keepsOutside_resume _)
  · exact wr_keepsOutside (keepsOutside_resume _)
  · exact wr_keepsOutside keepsOutside_succeed
  · exact nextKeepsOutside_fault s _

theorem execSetTimeout_keepsOutside (s : State) : NextKeepsOutside s (execSetTimeout s) := by
  refine inCommand_keepsOutside fun c => ?_
  cases c.seg with
  | start => exact nextKeepsOutside_next (((keepsOutside_setTimeout State.arg).comp keepsOutside_succeed) s)
  | _ => exact nextKeepsOutside_fault s _

theorem execWaitDataReady_keepsOutside (s : State) : NextKeepsOutside s (execWaitDataReady s) := by
  refine inCommand_keepsOutside fun c => ?_
  cases c.seg with
  | start => exact latchNow_keepsOutside .waitCheck c s
  | waitCheck => exact waitTimeCheck_keepsOutside c s
  | poll => exact waitPoll_keepsOutside keepsOutside_succeed
  | _ => exact nextKeepsOutside_fault s _

/-- `READ_ALL` and `GET_SORTED` share every position; they differ in `finish` only (43_acquisition.md R188). -/
theorem acquire_keepsOutside {finish : State → State} (hf : KeepsOutside finish) (s : State) :
    NextKeepsOutside s (acquire finish s) := by
  refine inCommand_keepsOutside fun c => ?_
  cases c.seg with
  | start =>
    exact tryBankRead_keepsOutside fun code _ => keepsOutside_ite (keepsOutside_startReading.comp (keepsOutside_resume _))
      (keepsOutside_startReading.comp (keepsOutside_fail code))
  | bankWrite => exact selectBankWrite_keepsOutside (keepsOutside_resume _)
  | waitStart => exact latchNow_keepsOutside .waitCheck c s
  | waitCheck => exact waitTimeCheck_keepsOutside c s
  | poll => exact waitPoll_keepsOutside (keepsOutside_resume _)
  | channel => exact rd_keepsOutside (keepsOutside_storeChannel c hf)
  | _ => exact nextKeepsOutside_fault s _

theorem execReadAll_keepsOutside (s : State) : NextKeepsOutside s (execReadAll s) :=
  acquire_keepsOutside (keepsOutside_validateChannels.comp keepsOutside_succeed) s

theorem execGetSorted_keepsOutside (s : State) : NextKeepsOutside s (execGetSorted s) :=
  acquire_keepsOutside ((keepsOutside_validateChannels.comp keepsOutside_sortChannels).comp keepsOutside_succeed) s

/-- Every segment of every command leaves alone what the other agents own. -/
theorem exec_keepsOutside (i : Instr) (s : State) : NextKeepsOutside s (exec i s) := by
  cases i with
  | write a r n => exact execWrite_keepsOutside a r n s
  | read a r n => exact execRead_keepsOutside a r n s
  | setBank => exact execSetBank_keepsOutside s
  | isConnected => exact execIsConnected_keepsOutside s
  | init => exact execInit_keepsOutside s
  | setGain => exact execSetGain_keepsOutside s
  | setItime => exact execSetItime_keepsOutside s
  | setTimeout => exact execSetTimeout_keepsOutside s
  | waitDataReady => exact execWaitDataReady_keepsOutside s
  | readAll => exact execReadAll_keepsOutside s
  | getSorted => exact execGetSorted_keepsOutside s

/-! The target's own turns. -/

/-- The step of a state whose agenda names the next turn (00_scope.md R6). -/
theorem step_of_agenda {s : State} {e : Event} {rest : List Event} (h : s.agenda = e :: rest) :
    step s = runEvent e (s.setAgenda rest) := by
  simp [step, h]

/-- The sensor engine writes `REGS` and nothing else (20_memory.md R77). -/
theorem Target.engineStore_eq_setRegs (p : Params) (r : BitVec 8) (v : Byte) (t : Target) :
    t.engineStore p r v = t.setRegs (t.engineStore p r v).regs := by
  unfold Target.engineStore
  split <;> rfl

/-- After a power cycle nothing is stored, so every register holds the free value of the new power-up (log 9). -/
theorem Target.powerCycle_reads (t : Target) (r : BitVec 8) :
    t.powerCycle.reg r = Config.powerUpByte t.powerCycle.powerUps false r
      ∧ t.powerCycle.reg1 r = Config.powerUpByte t.powerCycle.powerUps true r := ⟨rfl, rfl⟩

/-- A turn of the sensor engine, named by the agenda. -/
theorem step_engine {s : State} {r : BitVec 8} {v : Byte} {rest : List Event} (h : s.agenda = .engine r v :: rest) :
    step s = .next ((s.setAgenda rest).setTarget (s.target.engineStore s.params r v)) := step_of_agenda h

/-- A power cycle of the target, named by the agenda. -/
theorem step_powerCycle {s : State} {rest : List Event} (h : s.agenda = .powerCycle :: rest) :
    step s = .next ((s.setAgenda rest).setTarget s.target.powerCycle) := step_of_agenda h

/-! The obligations of 00_scope.md. -/

/-- Settles O44: every segment is built from operations that each keep what the other agents own. -/
theorem segmentsKeepWhatOthersOwn : Obligations.SegmentsKeepWhatOthersOwn := by
  unfold Obligations.SegmentsKeepWhatOthersOwn
  intro i s t h
  exact exec_keepsOutside i s t h

/-- Settles O60, one event of the target at a time. -/
theorem targetEventsChangeOnlyTarget : Obligations.TargetEventsChangeOnlyTarget := by
  unfold Obligations.TargetEventsChangeOnlyTarget
  intro s rest
  constructor
  · intro r v h
    rw [step_engine h, Target.engineStore_eq_setRegs]
    rfl
  · intro h
    exact ⟨s.target.powerCycle, step_powerCycle h, rfl, rfl, rfl, rfl, s.target.powerCycle_reads⟩

end Sys2Proof.Machine
end

section
/-! SUPPORT. What one segment of a command can do, said once for all commands (30_encoding.md R107): at most one primitive call,
then at most one change of the controller's registers, then an ending. Frames and invariants of segments are read off it. -/

namespace Sys2Proof.Machine

/-! The parts of a segment. -/

/-- A reading has begun: its flags were cleared with the first statement (43_acquisition.md R188). True of every other command. -/
def Begun (i : Instr) (c : Ctx) : Prop := isReading i = true → c.seg ≠ .start

/-- The commands with a `SelectBank` or the snoop of `WRITE` (10_state.md R27). -/
def writesMirror : Instr → Bool
  | .write _ _ _ => true
  | .setBank => true
  | .isConnected => true
  | .init => true
  | .readAll => true
  | .getSorted => true
  | .read _ _ _ => false
  | .setGain => false
  | .setItime => false
  | .setTimeout => false
  | .waitDataReady => false

/-- The primitive call of a segment of `i`: one that leaves the state alone, or a transaction. -/
inductive Calls (i : Instr) (s : State) : State → Prop
  | own : Calls i s s
  | bus {s' : State} (hi : i ≠ .setTimeout) (hbus : BusOnly s s') (hsound : s.target.Sound → s'.target.Sound) : Calls i s s'

/-- What a segment of `i` at `c` may store in the controller's registers after its primitive call. -/
inductive Stores (i : Instr) (c : Ctx) (s : State) : State → Prop
  | nothing (hb : Begun i c) : Stores i c s s
  | mirror (hi : writesMirror i = true) (hb : Begun i c) {m : BitVec 2} (hm : m = 0b00 ∨ m = 0b01 ∨ m = 0b11) :
      Stores i c s (setMirror m s)
  | timeout (hi : i = .setTimeout) : Stores i c s (s.setTimeout s.arg)
  | buffer {a : BitVec 7} {r : BitVec 8} {n : BitVec 6} (hi : i = .read a r n) (x : Vector Byte 32) :
      Stores i c s (s.setBuf x)
  | identity (hi : i = .isConnected) (v : Byte) : Stores i c s (s.setResult (s.result.setIdValue v))
  | reading (hi : isReading i = true) : Stores i c s (startReading s)
  | channel (hi : isReading i = true) (hb : Begun i c) (x : Vector Half 18) : Stores i c s (s.setCh x)

/-- How a segment of `i` at `c` ends: at a position of the command, or with its completion. -/
inductive Ends (i : Instr) (c : Ctx) (s : State) : State → Prop
  | resumed {c' : Ctx} (hseg : c'.seg ∈ segments i) (he : c.e ∈ identityCodes → c'.e ∈ identityCodes) :
      Ends i c s (resume c' s)
  | completed {ok : Bool} {code : BitVec 4} (hok : ok = true → code = 0) (hcode : c.e ∈ identityCodes → code.toNat ≤ 7) :
      Ends i c s (complete ok code s)
  | validated (hi : i = .readAll) : Ends i c s (succeed (validateChannels s))
  | sorted (hi : i = .getSorted) : Ends i c s (succeed (sortChannels (validateChannels s)))

/-- One segment of `i` at `c` from `s`: unanswered, or a call, a change and an ending. -/
inductive SegmentStep (i : Instr) (c : Ctx) (s : State) : State → Prop
  | unanswered : SegmentStep i c s s
  | answered {s₁ s₂ t : State} (hcall : Calls i s s₁) (hstore : Stores i c s₁ s₂) (hend : Ends i c s₂ t) :
      SegmentStep i c s t

/-- The rest of a segment after its primitive call. -/
def Finishes (i : Instr) (c : Ctx) (k : State → State) : Prop := ∀ s, ∃ s', Stores i c s s' ∧ Ends i c s' (k s)

/-- A segment of `i` at `c` from `s`, if it answers next. -/
def Steps (i : Instr) (c : Ctx) (s : State) (o : Out) : Prop := ∀ t, o = .next t → SegmentStep i c s t

/-! The endings. -/

theorem begun_of_not_reading {i : Instr} (hi : isReading i = false) (c : Ctx) : Begun i c := by
  intro h; rw [hi] at h; cases h

theorem begun_of_seg {c : Ctx} {g : Seg} (hc : c.seg = g) (hg : g ≠ .start) (i : Instr) : Begun i c := by
  intro _; rwa [hc]

/-- Every failure code fits the 3 low bits (60_exceptions.md R220). -/
theorem ErrCode.code_le (e : ErrCode) : e.code.toNat ≤ 7 := by cases e <;> decide

theorem identityCodes_le {e : BitVec 4} (h : e ∈ identityCodes) : e.toNat ≤ 7 := by
  revert e; decide

theorem ends_fail (i : Instr) (c : Ctx) (code : ErrCode) (s : State) : Ends i c s (fail code s) :=
  .completed (fun h => nomatch h) fun _ => code.code_le

theorem ends_succeed (i : Instr) (c : Ctx) (s : State) : Ends i c s (succeed s) :=
  .completed (fun _ => rfl) fun _ => by decide

theorem ends_finishIdentity (i : Instr) (c : Ctx) (c3 : ErrCode) (s : State) : Ends i c s (finishIdentity c c3 s) := by
  refine .completed (fun h => of_decide_eq_true h) fun he => ?_
  split
  · exact c3.code_le
  · exact identityCodes_le he

/-! The rest of a segment. -/

theorem finishes_ite {i : Instr} {c : Ctx} {p : Prop} [Decidable p] {f g : State → State} (hf : Finishes i c f)
    (hg : Finishes i c g) : Finishes i c fun s => if p then f s else g s := by
  intro s
  dsimp only
  split
  · exact hf s
  · exact hg s

theorem finishes_fail {i : Instr} {c : Ctx} (hb : Begun i c) (code : ErrCode) : Finishes i c (fail code) :=
  fun s => ⟨s, .nothing hb, ends_fail i c code s⟩

theorem finishes_succeed {i : Instr} {c : Ctx} (hb : Begun i c) : Finishes i c succeed :=
  fun s => ⟨s, .nothing hb, ends_succeed i c s⟩

theorem finishes_resume {i : Instr} {c c' : Ctx} (hb : Begun i c) (hseg : c'.seg ∈ segments i)
    (he : c.e ∈ identityCodes → c'.e ∈ identityCodes) : Finishes i c (resume c') :=
  fun s => ⟨s, .nothing hb, .resumed hseg he⟩

/-- The snoop stores a legal mirror or nothing (40_bus_adapter.md R135). -/
theorem stores_snoop (a : BitVec 7) (r : BitVec 8) (n : BitVec 6) (c : Ctx) (o : WriteOutcome) (s : State) :
    Stores (.write a r n) c s (snoop a r n o s) := by
  have hb : Begun (.write a r n) c := begun_of_not_reading rfl c
  unfold snoop
  split
  · split
    · exact .mirror rfl hb ((bankMirror_cases _).imp_right .inl)
    · exact .mirror rfl hb (.inr (.inr rfl))
  · exact .nothing hb

/-- The position after a channel is read: the next channel, or the end (43_acquisition.md R188). -/
theorem finishes_storeChannel {i : Instr} {c : Ctx} (hi : isReading i = true) (hb : Begun i c)
    (hseg : c.seg ∈ segments i) {finish : State → State} (hf : ∀ s, Ends i c s (finish s)) (bytes : List Byte) :
    Finishes i c (storeChannel c finish bytes) := by
  intro s
  refine ⟨_, .channel hi hb (s.ch.set c.i.val (littleEndian (bytes.getD 0 0) (bytes.getD 1 0)) c.i.isLt), ?_⟩
  unfold storeChannel
  dsimp only
  split
  · exact .resumed hseg id
  · exact hf _

/-! The ways to run a segment. -/

theorem steps_next {i : Instr} {c : Ctx} {s : State} {k : State → State} (hk : Finishes i c k) :
    Steps i c s (.next (k s)) := by
  intro t ht
  cases ht
  obtain ⟨s', hst, he⟩ := hk s
  exact .answered .own hst he

theorem steps_fault (i : Instr) (c : Ctx) (s : State) (f : Fault) : Steps i c s (.fault f) := by
  intro t ht; cases ht

theorem onWrite_steps {i : Instr} {c : Ctx} {a : BitVec 7} {r : BitVec 8} {bytes : List Byte} {s : State}
    {k : WriteOutcome → State → State} (hi : i ≠ .setTimeout) (hk : ∀ o, Finishes i c (k o)) :
    Steps i c s (onWrite a r bytes s k) := by
  intro t ht
  refine onWrite_elim ht .unanswered fun o s' hw => ?_
  obtain ⟨s'', hst, he⟩ := hk o s'
  exact .answered (.bus hi (busWrite_only hw) fun hs => busWrite_sound hs hw) hst he

/-- The code of a read is one that `E` can hold (40_bus_adapter.md R131). -/
theorem onRead_steps {i : Instr} {c : Ctx} {a : BitVec 7} {r : BitVec 8} {n : Nat} {s : State}
    {k : ErrCode → List Byte → State → State} (hi : i ≠ .setTimeout)
    (hk : ∀ code bytes, code.code ∈ identityCodes → Finishes i c (k code bytes)) : Steps i c s (onRead a r n s k) := by
  intro t ht
  refine onRead_elim ht .unanswered fun code bytes s' hr => ?_
  have hcode : code.code ∈ identityCodes := by
    obtain rfl | rfl | rfl := busRead_code hr <;> decide
  obtain ⟨s'', hst, he⟩ := hk code bytes hcode s'
  exact .answered (.bus hi (busRead_only hr) fun hs => busRead_sound hs hr) hst he

theorem wr_steps {i : Instr} {c : Ctx} {r : BitVec 8} {bytes : List Byte} {s : State} {k : State → State}
    (hi : i ≠ .setTimeout) (hb : Begun i c) (hk : Finishes i c k) : Steps i c s (wr r bytes s k) :=
  onWrite_steps hi fun _ => finishes_ite hk (finishes_fail hb .nack)

theorem rd_steps {i : Instr} {c : Ctx} {r : BitVec 8} {n : Nat} {s : State} {k : List Byte → State → State}
    (hi : i ≠ .setTimeout) (hb : Begun i c) (hk : ∀ bytes, Finishes i c (k bytes)) : Steps i c s (rd r n s k) :=
  onRead_steps hi fun code bytes _ => finishes_ite (hk bytes) (finishes_fail hb code)

theorem rmwRead_steps {i : Instr} {c : Ctx} {next : Seg} (r : BitVec 8) (s : State) (hi : i ≠ .setTimeout)
    (hb : Begun i c) (hseg : next ∈ segments i) : Steps i c s (rmwRead r next c s) :=
  rd_steps hi hb fun _ => finishes_resume hb hseg id

theorem tryBankRead_steps {i : Instr} {c : Ctx} {s : State} {k : ErrCode → Byte → State → State} (hi : i ≠ .setTimeout)
    (hk : ∀ code v, code.code ∈ identityCodes → Finishes i c (k code v)) : Steps i c s (tryBankRead s k) :=
  onRead_steps hi fun code bytes => hk code (bytes.headD 0)

theorem tryBankWrite_steps {i : Instr} {c : Ctx} {b : BitVec 1} {s : State} {k : ErrCode → State → State}
    (hi : writesMirror i = true) (hb : Begun i c) (hk : ∀ code, code.code ∈ identityCodes → ∀ s', Ends i c s' (k code s')) :
    Steps i c s (tryBankWrite b c s k) := by
  have hne : i ≠ .setTimeout := by rintro rfl; cases hi
  refine onWrite_steps hne fun _ => finishes_ite (fun s' => ?_) (fun s' => ?_)
  · exact ⟨_, .mirror hi hb ((bankMirror_cases b).imp_right .inl), hk .none (by decide) _⟩
  · exact ⟨_, .mirror hi hb (.inr (.inr rfl)), hk .nack (by decide) _⟩

theorem selectBankWrite_steps {i : Instr} {c : Ctx} {b : BitVec 1} {s : State} {k : State → State}
    (hi : writesMirror i = true) (hb : Begun i c) (hk : ∀ s', Ends i c s' (k s')) :
    Steps i c s (selectBankWrite b c s k) := by
  refine tryBankWrite_steps hi hb fun code _ s' => ?_
  split
  · exact hk s'
  · exact ends_fail i c code s'

theorem latchNow_steps {i : Instr} {c : Ctx} {next : Seg} (s : State) (hb : Begun i c) (hseg : next ∈ segments i) :
    Steps i c s (latchNow next c s) :=
  steps_next (k := resume { c with seg := next, t0 := s.nowMs }) (finishes_resume hb hseg id)

theorem delayCheck_steps {i : Instr} {c : Ctx} {next : Seg} (d : Word) (s : State) (hb : Begun i c)
    (hseg : next ∈ segments i) (hloop : Seg.delayLoop ∈ segments i) : Steps i c s (delayCheck d next c s) := by
  refine steps_next (k := resume _) (finishes_resume hb ?_ id)
  dsimp only
  split
  · exact hseg
  · exact hloop

theorem waitTimeCheck_steps {i : Instr} {c : Ctx} (s : State) (hb : Begun i c) (hpoll : Seg.poll ∈ segments i) :
    Steps i c s (waitTimeCheck c s) :=
  steps_next (k := fun s' => if elapsed s.timeout c s then fail .timeout s' else resume { c with seg := .poll } s')
    (finishes_ite (finishes_fail hb .timeout) (finishes_resume hb hpoll id))

theorem waitPoll_steps {i : Instr} {c : Ctx} {s : State} {k : State → State} (hi : i ≠ .setTimeout) (hb : Begun i c)
    (hcheck : Seg.waitCheck ∈ segments i) (hk : Finishes i c k) : Steps i c s (waitPoll c s k) :=
  rd_steps hi hb fun _ => finishes_ite hk (finishes_resume hb hcheck id)

theorem inCommand_steps {i : Instr} {c : Ctx} {s : State} {k : Ctx → Out} (hc : s.ctx = some c) (hk : Steps i c s (k c)) :
    Steps i c s (inCommand s k) := by
  rw [inCommand_some hc]; exact hk

/-! The commands, by their positions (30_encoding.md R107). -/

section Commands

variable {s : State} {c : Ctx}

theorem execWrite_steps (a : BitVec 7) (r : BitVec 8) (n : BitVec 6) (hc : s.ctx = some c) :
    Steps (.write a r n) c s (execWrite a r n s) := by
  refine inCommand_steps hc ?_
  split
  · split
    · exact onWrite_steps nofun fun o => finishes_ite (fun s' => ⟨_, stores_snoop a r n c o s', ends_succeed _ c _⟩)
        (fun s' => ⟨_, stores_snoop a r n c o s', ends_fail _ c .nack _⟩)
    · exact steps_next (finishes_fail (begun_of_not_reading rfl c) .badarg)
  · exact steps_fault _ c s _

theorem execRead_steps (a : BitVec 7) (r : BitVec 8) (n : BitVec 6) (hc : s.ctx = some c) :
    Steps (.read a r n) c s (execRead a r n s) := by
  refine inCommand_steps hc ?_
  split
  · split
    · exact onRead_steps nofun fun code bytes _ => finishes_ite
        (fun s' => ⟨_, .buffer rfl (bufFill s'.buf bytes), ends_succeed _ c _⟩)
        (fun s' => ⟨_, .buffer rfl (bufFill s'.buf bytes), ends_fail _ c code _⟩)
    · exact steps_next (finishes_fail (begun_of_not_reading rfl c) .badarg)
  · exact steps_fault _ c s _

theorem execSetBank_steps (hc : s.ctx = some c) : Steps .setBank c s (execSetBank s) := by
  have hb : Begun .setBank c := begun_of_not_reading rfl c
  refine inCommand_steps hc ?_
  cases c.seg with
  | start => exact rmwRead_steps s.params.cfg0Reg s nofun hb (by decide)
  | bankWrite => exact selectBankWrite_steps rfl hb (ends_succeed _ c)
  | _ => exact steps_fault _ c s _

/-- `E` takes the verdict on the identity byte (41_bank_identity.md R153). -/
theorem identityVerdict_mem {e : BitVec 4} (he : e ∈ identityCodes) (p : Params) (v : Byte) :
    identityVerdict p e v ∈ identityCodes := by
  unfold identityVerdict
  split
  · exact he
  · decide

theorem execIsConnected_steps (hc : s.ctx = some c) : Steps .isConnected c s (execIsConnected s) := by
  have hb : Begun .isConnected c := begun_of_not_reading rfl c
  refine inCommand_steps hc ?_
  cases c.seg with
  | start =>
    exact tryBankRead_steps nofun fun code _ hcode => finishes_ite
      (finishes_resume hb (by decide : Seg.bankWrite ∈ segments .isConnected) fun _ =>
        (by decide : ErrCode.none.code ∈ identityCodes))
      (finishes_resume hb (by decide : Seg.backRead ∈ segments .isConnected) fun _ => hcode)
  | bankWrite =>
    refine tryBankWrite_steps rfl hb fun code hcode s' => ?_
    split
    · exact .resumed (by decide : Seg.idRead ∈ segments .isConnected) id
    · exact .resumed (by decide : Seg.backRead ∈ segments .isConnected) fun _ => hcode
  | idRead =>
    have hback : Seg.backRead ∈ segments .isConnected := by decide
    refine onRead_steps nofun fun code bytes hcode => finishes_ite (fun s' => ?_) (finishes_resume hb hback fun _ => hcode)
    exact ⟨_, .identity rfl (bytes.headD 0), .resumed hback fun he => identityVerdict_mem he s.params _⟩
  | backRead =>
    exact tryBankRead_steps nofun fun code _ _ => finishes_ite
      (finishes_resume hb (by decide : Seg.backWrite ∈ segments .isConnected) id)
      (fun s' => ⟨s', .nothing hb, ends_finishIdentity _ c code s'⟩)
  | backWrite => exact tryBankWrite_steps rfl hb fun code _ s' => ends_finishIdentity _ c code s'
  | _ => exact steps_fault _ c s _

theorem execInit_steps (hc : s.ctx = some c) : Steps .init c s (execInit s) := by
  have hb : Begun .init c := begun_of_not_reading rfl c
  refine inCommand_steps hc ?_
  cases c.seg with
  | start => exact rmwRead_steps s.params.cfg0Reg s nofun hb (by decide)
  | bankWrite => exact selectBankWrite_steps rfl hb fun _ => .resumed (by decide : Seg.ponRead ∈ segments .init) id
  | delayStart => exact latchNow_steps s hb (by decide)
  | delayLoop => exact delayCheck_steps s.params.stabDelayMs s hb (by decide) (by decide)
  | ponRead | smuxRead | gainRead | spenRead => exact rmwRead_steps _ s nofun hb (by decide)
  | ponWrite => exact wr_steps nofun hb (finishes_resume hb (by decide : Seg.delayStart ∈ segments .init) id)
  | smuxWrite => exact wr_steps nofun hb (finishes_resume hb (by decide : Seg.gainRead ∈ segments .init) id)
  | gainWrite => exact wr_steps nofun hb (finishes_resume hb (by decide : Seg.spenRead ∈ segments .init) id)
  | spenWrite => exact wr_steps nofun hb (finishes_succeed hb)
  | _ => exact steps_fault _ c s _

theorem execSetGain_steps (hc : s.ctx = some c) : Steps .setGain c s (execSetGain s) := by
  have hb : Begun .setGain c := begun_of_not_reading rfl c
  refine inCommand_steps hc ?_
  split
  · split
    · exact steps_next (finishes_fail hb .badarg)
    · split
      · exact steps_next (finishes_fail hb .bank)
      · exact rmwRead_steps s.params.gainReg s nofun hb (by decide)
  · exact wr_steps nofun hb (finishes_succeed hb)
  · exact steps_fault _ c s _

theorem execSetItime_steps (hc : s.ctx = some c) : Steps .setItime c s (execSetItime s) := by
  have hb : Begun .setItime c := begun_of_not_reading rfl c
  refine inCommand_steps hc ?_
  split
  · split
    · exact steps_next (finishes_fail hb .bank)
    · exact wr_steps nofun hb (finishes_resume hb (by decide : Seg.astepLow ∈ segments .setItime) id)
  · exact wr_steps nofun hb (finishes_resume hb (by decide : Seg.astepHigh ∈ segments .setItime) id)
  · exact wr_steps nofun hb (finishes_succeed hb)
  · exact steps_fault _ c s _

theorem execSetTimeout_steps (hc : s.ctx = some c) : Steps .setTimeout c s (execSetTimeout s) := by
  refine inCommand_steps hc ?_
  cases c.seg with
  | start => exact steps_next fun s' => ⟨_, .timeout rfl, ends_succeed _ c _⟩
  | _ => exact steps_fault _ c s _

theorem execWaitDataReady_steps (hc : s.ctx = some c) : Steps .waitDataReady c s (execWaitDataReady s) := by
  have hb : Begun .waitDataReady c := begun_of_not_reading rfl c
  refine inCommand_steps hc ?_
  cases c.seg with
  | start => exact latchNow_steps s hb (by decide)
  | waitCheck => exact waitTimeCheck_steps s hb (by decide)
  | poll => exact waitPoll_steps nofun hb (by decide) (finishes_succeed hb)
  | _ => exact steps_fault _ c s _

/-- `READ_ALL` and `GET_SORTED` have the same positions and both select bank 0. -/
theorem reading_shape {i : Instr} (hi : isReading i = true) :
    segments i = segments .readAll ∧ writesMirror i = true ∧ i ≠ .setTimeout := by
  cases i with
  | readAll | getSorted => exact ⟨rfl, rfl, nofun⟩
  | _ => cases hi

/-- `READ_ALL` and `GET_SORTED` share every position; they differ in `finish` only (43_acquisition.md R188). -/
theorem acquire_steps {i : Instr} {finish : State → State} (hi : isReading i = true) (hc : s.ctx = some c)
    (hf : ∀ s', Ends i c s' (finish s')) : Steps i c s (acquire finish s) := by
  obtain ⟨hsegs, hm, hne⟩ := reading_shape hi
  have hmem {g : Seg} (hg : g ∈ segments .readAll) : g ∈ segments i := hsegs ▸ hg
  refine inCommand_steps hc ?_
  cases hseg : c.seg with
  | start =>
    exact tryBankRead_steps hne fun code v _ => finishes_ite
      (fun s' => ⟨_, .reading hi, .resumed (hmem (by decide : Seg.bankWrite ∈ _)) id⟩)
      (fun s' => ⟨_, .reading hi, ends_fail i c code _⟩)
  | bankWrite =>
    exact selectBankWrite_steps hm (begun_of_seg hseg nofun i) fun _ =>
      .resumed (hmem (by decide : Seg.waitStart ∈ _)) id
  | waitStart => exact latchNow_steps s (begun_of_seg hseg nofun i) (hmem (by decide))
  | waitCheck => exact waitTimeCheck_steps s (begun_of_seg hseg nofun i) (hmem (by decide))
  | poll =>
    have hb : Begun i c := begun_of_seg hseg nofun i
    exact waitPoll_steps hne hb (hmem (by decide)) (finishes_resume hb (hmem (by decide : Seg.channel ∈ _)) id)
  | channel =>
    have hb : Begun i c := begun_of_seg hseg nofun i
    have hch : c.seg ∈ segments i := by rw [hseg]; exact hmem (by decide)
    exact rd_steps hne hb (finishes_storeChannel hi hb hch hf)
  | _ => exact steps_fault _ c s _

/-- Every segment of every command is a call, a change and an ending of that command. -/
theorem exec_steps (i : Instr) (hc : s.ctx = some c) : Steps i c s (exec i s) := by
  cases i with
  | write a r n => exact execWrite_steps a r n hc
  | read a r n => exact execRead_steps a r n hc
  | setBank => exact execSetBank_steps hc
  | isConnected => exact execIsConnected_steps hc
  | init => exact execInit_steps hc
  | setGain => exact execSetGain_steps hc
  | setItime => exact execSetItime_steps hc
  | setTimeout => exact execSetTimeout_steps hc
  | waitDataReady => exact execWaitDataReady_steps hc
  | readAll => exact acquire_steps rfl hc fun _ => .validated rfl
  | getSorted => exact acquire_steps rfl hc fun _ => .sorted rfl

end Commands

/-- A meaning runs only inside a command (log 6). -/
theorem exec_ctx {i : Instr} {s t : State} (h : exec i s = .next t) : ∃ c, s.ctx = some c := by
  have key {k : Ctx → Out} (hk : inCommand s k = .next t) : ∃ c, s.ctx = some c := by
    obtain ⟨c, hc, -⟩ := inCommand_next hk
    exact ⟨c, hc⟩
  cases i <;> exact key h

/-- What a segment that answers next did. -/
theorem exec_segmentStep {i : Instr} {s t : State} (h : exec i s = .next t) :
    ∃ c, s.ctx = some c ∧ SegmentStep i c s t := by
  obtain ⟨c, hc⟩ := exec_ctx h
  exact ⟨c, hc, exec_steps i hc t h⟩

end Sys2Proof.Machine
end

section
/-! SUPPORT. What segments leave alone (10_state.md R27, R30 to R38), read off the parts of a segment. -/

namespace Sys2Proof.Machine

/-! The data registers. -/

/-- Which commands write which data register and flag: `t` differs from `s` there for no other command than `i`. -/
def WritesOwnData (i : Instr) (s t : State) : Prop :=
  (i ≠ .setTimeout → t.timeout = s.timeout)
    ∧ ((∀ a r n, i ≠ .read a r n) → t.buf = s.buf)
    ∧ (i ≠ .readAll → i ≠ .getSorted → t.ch = s.ch ∧ sameValid s t)
    ∧ (i ≠ .getSorted → t.sorted = s.sorted)
    ∧ (i ≠ .isConnected → t.result.idValue = s.result.idValue)
    ∧ (i = .setTimeout → t.target = s.target ∧ t.result = s.result)

@[refl] theorem WritesOwnData.refl (i : Instr) (s : State) : WritesOwnData i s s :=
  ⟨fun _ => rfl, fun _ => rfl, fun _ _ => ⟨rfl, rfl, rfl⟩, fun _ => rfl, fun _ => rfl, fun _ => ⟨rfl, rfl⟩⟩

theorem WritesOwnData.trans {i : Instr} {s t u : State} (h : WritesOwnData i s t) (h' : WritesOwnData i t u) :
    WritesOwnData i s u := by
  obtain ⟨h1, h2, h3, h4, h5, h6⟩ := h
  obtain ⟨g1, g2, g3, g4, g5, g6⟩ := h'
  refine ⟨fun hi => (g1 hi).trans (h1 hi), fun hi => (g2 hi).trans (h2 hi), fun hr hg => ?_,
    fun hi => (g4 hi).trans (h4 hi), fun hi => (g5 hi).trans (h5 hi),
    fun hi => ⟨(g6 hi).1.trans (h6 hi).1, (g6 hi).2.trans (h6 hi).2⟩⟩
  obtain ⟨hch, hcv, hsv⟩ := h3 hr hg
  obtain ⟨gch, gcv, gsv⟩ := g3 hr hg
  exact ⟨gch.trans hch, gcv.trans hcv, gsv.trans hsv⟩

theorem isReading_iff {i : Instr} : isReading i = true ↔ i = .readAll ∨ i = .getSorted := by
  cases i <;> simp [isReading]

theorem Calls.writesOwnData {i : Instr} {s t : State} (h : Calls i s t) : WritesOwnData i s t := by
  cases h with
  | own => rfl
  | bus hi hbus _ =>
    obtain ⟨r, g, rfl, hid⟩ := hbus
    exact ⟨fun _ => rfl, fun _ => rfl, fun _ _ => ⟨rfl, rfl, rfl⟩, fun _ => rfl, fun _ => hid, fun h => absurd h hi⟩

theorem Stores.writesOwnData {i : Instr} {c : Ctx} {s t : State} (h : Stores i c s t) : WritesOwnData i s t := by
  have hread (hi : isReading i = true) (hr : i ≠ .readAll) (hg : i ≠ .getSorted) : False :=
    (isReading_iff.mp hi).elim hr hg
  cases h with
  | nothing => rfl
  | mirror => exact .refl i s
  | timeout hi =>
    exact ⟨fun h => absurd hi h, fun _ => rfl, fun _ _ => ⟨rfl, rfl, rfl⟩, fun _ => rfl, fun _ => rfl,
      fun _ => ⟨rfl, rfl⟩⟩
  | buffer hi =>
    exact ⟨fun _ => rfl, fun h => absurd hi (h _ _ _), fun _ _ => ⟨rfl, rfl, rfl⟩, fun _ => rfl, fun _ => rfl,
      fun _ => ⟨rfl, rfl⟩⟩
  | identity hi v =>
    refine ⟨fun _ => rfl, fun _ => rfl, fun _ _ => ⟨rfl, rfl, rfl⟩, fun _ => rfl, fun h => absurd hi h, fun h => ?_⟩
    rw [hi] at h; cases h
  | reading hi | channel hi =>
    exact ⟨fun _ => rfl, fun _ => rfl, fun hr hg => (hread hi hr hg).elim, fun _ => rfl, fun _ => rfl, fun _ => ⟨rfl, rfl⟩⟩

theorem Ends.writesOwnData {i : Instr} {c : Ctx} {s t : State} (h : Ends i c s t) : WritesOwnData i s t := by
  cases h with
  | resumed | completed => exact .refl i s
  | validated hi =>
    exact ⟨fun _ => rfl, fun _ => rfl, fun h _ => absurd hi h, fun _ => rfl, fun _ => rfl, fun _ => ⟨rfl, rfl⟩⟩
  | sorted hi =>
    exact ⟨fun _ => rfl, fun _ => rfl, fun _ h => absurd hi h, fun h => absurd hi h, fun _ => rfl, fun _ => ⟨rfl, rfl⟩⟩

theorem SegmentStep.writesOwnData {i : Instr} {c : Ctx} {s t : State} (h : SegmentStep i c s t) : WritesOwnData i s t := by
  cases h with
  | unanswered => rfl
  | answered hcall hstore hend => exact (hcall.writesOwnData.trans hstore.writesOwnData).trans hend.writesOwnData

/-! The bank mirror. -/

theorem Calls.status {i : Instr} {s t : State} (h : Calls i s t) : t.status = s.status := by
  cases h with
  | own => rfl
  | bus _ hbus _ => obtain ⟨r, g, rfl, -⟩ := hbus; rfl

theorem Ends.bank {i : Instr} {c : Ctx} {s t : State} (h : Ends i c s t) : t.status.bank = s.status.bank := by
  cases h <;> rfl

/-- What a segment does to the mirror (10_state.md R27). -/
theorem Stores.bank {i : Instr} {c : Ctx} {s t : State} (h : Stores i c s t) :
    t.status.bank = s.status.bank
      ∨ writesMirror i = true ∧ (t.status.bank = 0b00 ∨ t.status.bank = 0b01 ∨ t.status.bank = 0b11) := by
  cases h with
  | mirror hi _ hm => exact .inr ⟨hi, hm⟩
  | _ => exact .inl rfl

theorem SegmentStep.bank {i : Instr} {c : Ctx} {s t : State} (h : SegmentStep i c s t) :
    t.status.bank = s.status.bank
      ∨ writesMirror i = true ∧ (t.status.bank = 0b00 ∨ t.status.bank = 0b01 ∨ t.status.bank = 0b11) := by
  cases h with
  | unanswered => exact .inl rfl
  | answered hcall hstore hend =>
    rw [hend.bank, ← hcall.status]
    exact hstore.bank

end Sys2Proof.Machine
end

section
/-! SUPPORT. The invariant, part by part, and that every part of a segment keeps it (10_state.md R26, R31, R47). -/

namespace Sys2Proof.Machine

/-! What the invariant says, without the matches of its definition. -/

/-- While idle there is no context. -/
theorem contextSound_idle {s : State} (hc : s.ctx = none) : ContextSound s ↔ s.status.busy = false := by
  simp [ContextSound, hc]

/-- While busy there is one, at a position and with a code that exist. -/
theorem contextSound_busy {s : State} {c : Ctx} (hc : s.ctx = some c) :
    ContextSound s ↔ s.status.busy = true ∧ positionFits s c ∧ readingUnvalidated s c ∧ c.e ∈ identityCodes := by
  simp [ContextSound, hc]

theorem positionFits_legal {s : State} {i : Instr} (hi : decode s.cmd = .ok i) (c : Ctx) :
    positionFits s c ↔ c.seg ∈ segments i := by
  simp [positionFits, hi]

theorem readingUnvalidated_legal {s : State} {i : Instr} (hi : decode s.cmd = .ok i) (c : Ctx) :
    readingUnvalidated s c
      ↔ (isReading i = true → c.seg ≠ .start → s.status.chValid = false ∧ s.status.sortedValid = false) := by
  simp [readingUnvalidated, hi]

/-- The first statement is a position of every word, legal or not. -/
theorem start_fits {s : State} {c : Ctx} (hc : c.seg = .start) : positionFits s c ∧ readingUnvalidated s c := by
  cases hi : decode s.cmd with
  | ok i =>
    refine ⟨(positionFits_legal hi c).mpr ?_, (readingUnvalidated_legal hi c).mpr fun _ h => absurd hc h⟩
    rw [hc]
    cases i <;> exact List.mem_cons_self
  | error e => simp [positionFits, readingUnvalidated, hi, hc]

theorem State.Inv.sound {s : State} (h : s.Inv) : s.target.Sound := by
  obtain ⟨-, -, -, hsound⟩ := h
  exact hsound

theorem State.Inv.bank {s : State} (h : s.Inv) : s.status.bank ≠ 0b10 := by
  obtain ⟨-, ⟨-, -, hbank, -⟩, -⟩ := h
  exact hbank

/-! The parts of a segment. -/

theorem Calls.sound {i : Instr} {s t : State} (h : Calls i s t) (hs : s.target.Sound) : t.target.Sound := by
  cases h with
  | own => exact hs
  | bus _ _ hsound => exact hsound hs

theorem Stores.target {i : Instr} {c : Ctx} {s t : State} (h : Stores i c s t) : t.target = s.target := by
  cases h <;> rfl

theorem Ends.target {i : Instr} {c : Ctx} {s t : State} (h : Ends i c s t) : t.target = s.target := by
  cases h <;> rfl

theorem SegmentStep.sound {i : Instr} {c : Ctx} {s t : State} (h : SegmentStep i c s t) (hs : s.target.Sound) :
    t.target.Sound := by
  cases h with
  | unanswered => exact hs
  | answered hcall hstore hend => rw [hend.target, hstore.target]; exact hcall.sound hs

/-- A store leaves the fields of `STATUS` that issue and completion write. -/
theorem Stores.progress {i : Instr} {c : Ctx} {s t : State} (h : Stores i c s t) :
    t.status.busy = s.status.busy ∧ t.status.done = s.status.done ∧ t.status.ok = s.status.ok
      ∧ t.status.err = s.status.err := by
  cases h <;> exact ⟨rfl, rfl, rfl, rfl⟩

/-- After the store of a reading both valid flags are clear (10_state.md R30, R31). -/
theorem Stores.unvalidated {i : Instr} {c : Ctx} {s t : State} (h : Stores i c s t) (hi : isReading i = true)
    (hs : c.seg ≠ .start → s.status.chValid = false ∧ s.status.sortedValid = false) :
    t.status.chValid = false ∧ t.status.sortedValid = false := by
  cases h with
  | nothing hb => exact hs (hb hi)
  | mirror _ hb _ => exact hs (hb hi)
  | channel _ hb _ => exact hs (hb hi)
  | reading => exact ⟨rfl, rfl⟩
  | timeout h | buffer h | identity h => rw [h] at hi; cases hi

/-- How an ending shows in `STATUS` and the context (60_exceptions.md R223). -/
theorem Ends.cases_ctx {i : Instr} {c : Ctx} {s t : State} (h : Ends i c s t) :
    (∃ c', t.ctx = some c' ∧ t.status = s.status ∧ c'.seg ∈ segments i ∧ (c.e ∈ identityCodes → c'.e ∈ identityCodes))
      ∨ (t.ctx = none ∧ t.status.busy = false ∧ (t.status.ok = true → t.status.err = 0)
          ∧ (c.e ∈ identityCodes → t.status.err.toNat ≤ 7)) := by
  cases h with
  | resumed hseg he => exact .inl ⟨_, rfl, rfl, hseg, he⟩
  | completed hok hcode => exact .inr ⟨rfl, rfl, hok, hcode⟩
  | validated | sorted => exact .inr ⟨rfl, rfl, fun _ => rfl, fun _ => by simp⟩

/-- `SORTED` stays true to `CH` where the channels changed only with both flags clear (10_state.md R31). -/
theorem Ends.viewSound {i : Instr} {c : Ctx} {s t : State} (h : Ends i c s t) (hs : ViewSound s)
    (hi : isReading i = true → s.status.sortedValid = false) : ViewSound t := by
  cases h with
  | resumed | completed => exact hs
  | validated h =>
    have hsv := hi (by rw [h]; rfl)
    intro hv
    simp [hsv] at hv
  | sorted => exact fun _ => ⟨rfl, rfl⟩

/-- A command other than a reading keeps the view true, and so does a reading with the flag clear (10_state.md R31). -/
theorem WritesOwnData.viewSound {i : Instr} {s t : State} (h : WritesOwnData i s t) (hs : ViewSound s)
    (hi : isReading i = true → t.status.sortedValid = false) : ViewSound t := by
  intro hv
  by_cases hr : isReading i = true
  · rw [hi hr] at hv; cases hv
  · rw [isReading_iff, not_or] at hr
    obtain ⟨-, -, hvalid, hsorted, -⟩ := h
    obtain ⟨hch, hcv, hsv⟩ := hvalid hr.1 hr.2
    rw [hcv, hsorted hr.2, hch]
    exact hs (hsv ▸ hv)

/-- No segment makes the mirror 0b10 (10_state.md R27). -/
theorem SegmentStep.bank_legal {i : Instr} {c : Ctx} {s t : State} (h : SegmentStep i c s t) (hs : s.status.bank ≠ 0b10) :
    t.status.bank ≠ 0b10 := by
  obtain hb | ⟨-, hb | hb | hb⟩ := h.bank
  · rwa [hb]
  all_goals rw [hb]; decide

/-- A segment of the command in `CMD` keeps the invariant. -/
theorem SegmentStep.inv {i : Instr} {c : Ctx} {s t : State} (h : SegmentStep i c s t) (hi : decode s.cmd = .ok i)
    (hc : s.ctx = some c) (hcmd : t.cmd = s.cmd) (hs : s.Inv) : t.Inv := by
  have hsound := h.sound hs.sound
  have hbank := h.bank_legal hs.bank
  cases h with
  | unanswered => exact hs
  | @answered s₁ s₂ _ hcall hstore hend =>
    obtain ⟨hctx, ⟨hidle, -, -, hcode⟩, hview, -⟩ := hs
    obtain ⟨hbusy, -, hunval, he⟩ := (contextSound_busy hc).mp hctx
    rw [readingUnvalidated_legal hi, ← hcall.status] at hunval
    obtain ⟨hdone, hok, herr⟩ := hidle hbusy
    have hclear (hr : isReading i = true) := hstore.unvalidated hr (hunval hr)
    have hview : ViewSound t := hend.viewSound
      ((hcall.writesOwnData.trans hstore.writesOwnData).viewSound hview fun hr => (hclear hr).2) fun hr => (hclear hr).2
    obtain ⟨c', hc', hst, hseg, he'⟩ | ⟨hc', hb, hok', herr'⟩ := hend.cases_ctx
    · obtain ⟨hp1, hp2, hp3, hp4⟩ := hstore.progress
      rw [← hst, hcall.status] at hp1 hp2 hp3 hp4
      refine ⟨(contextSound_busy hc').mpr ⟨hp1.trans hbusy, ?_, ?_, he' he⟩, ⟨?_, ?_, hbank, ?_⟩, hview, hsound⟩
      · exact (positionFits_legal (hcmd ▸ hi) c').mpr hseg
      · rw [readingUnvalidated_legal (hcmd ▸ hi), hst]
        exact fun hr _ => hclear hr
      · exact fun _ => ⟨hp2.trans hdone, hp3.trans hok, hp4.trans herr⟩
      · intro hd
        rw [hp2, hdone] at hd; cases hd
      · rwa [hp4]
    · refine ⟨(contextSound_idle hc').mpr hb, ⟨fun hbusy' => ?_, fun _ => hok', hbank, herr' he⟩, hview, hsound⟩
      rw [hb] at hbusy'; cases hbusy'

end Sys2Proof.Machine
end

section
/-! SUPPORT. The CSR window and the host's turn: what each access does, as equations (10_state.md R22 to R42), and the views of
the words the host reads. -/

namespace Sys2Proof.Machine

/-! The map of the window. -/

theorem Csr.bufw_offset_toNat (j : Fin 8) : (Csr.bufw j).offset.toNat = 0x20 + 4 * j.val := by
  show (0x20 + 4 * j.val) % 2 ^ 8 = _
  omega

theorem Csr.chw_offset_toNat (j : Fin 9) : (Csr.chw j).offset.toNat = 0x40 + 4 * j.val := by
  show (0x40 + 4 * j.val) % 2 ^ 8 = _
  omega

theorem Csr.srw_offset_toNat (j : Fin 6) : (Csr.srw j).offset.toNat = 0x64 + 4 * j.val := by
  show (0x64 + 4 * j.val) % 2 ^ 8 = _
  omega

/-- Only its own offset finds a register: the converse of `Csr.atOffset_offset`. -/
theorem Csr.offset_of_atOffset {off : BitVec 8} {r : Csr} (ha : off.toNat % 4 = 0) (h : Csr.atOffset off = some r) :
    off = r.offset := by
  apply BitVec.eq_of_toNat_eq
  unfold Csr.atOffset Csr.ofIndex at h
  split at h
  · cases h; rw [Csr.bufw_offset_toNat]; dsimp only; omega
  split at h
  · cases h; rw [Csr.chw_offset_toNat]; dsimp only; omega
  split at h
  · cases h; rw [Csr.srw_offset_toNat]; dsimp only; omega
  split at h
  all_goals cases h <;> simp only [Csr.offset, BitVec.ofNat_eq_ofNat, BitVec.toNat_ofNat] <;> omega

/-- The registers the host can write (10_state.md R41). -/
def Csr.IsWritable (r : Csr) : Prop := r = .cmd ∨ r = .arg ∨ ∃ j, r = .bufw j

theorem Csr.IsWritable.offset_range {r : Csr} (h : r.IsWritable) :
    r.offset.toNat ≤ 0x04 ∨ (0x20 ≤ r.offset.toNat ∧ r.offset.toNat ≤ 0x3C) := by
  obtain rfl | rfl | ⟨j, rfl⟩ := h
  · exact .inl (by decide)
  · exact .inl (by decide)
  · rw [Csr.bufw_offset_toNat]; omega

/-- No register stands at a reserved offset (10_state.md R22, R39). -/
theorem Csr.offset_not_reserved (r : Csr) :
    ¬((0x18 ≤ r.offset.toNat ∧ r.offset.toNat ≤ 0x1F) ∨ 0x7C ≤ r.offset.toNat) := by
  cases r with
  | bufw j => rw [Csr.bufw_offset_toNat]; omega
  | chw j => rw [Csr.chw_offset_toNat]; omega
  | srw j => rw [Csr.srw_offset_toNat]; omega
  | _ => decide

theorem Csr.atOffset_reserved {off : BitVec 8} (ha : off.toNat % 4 = 0)
    (h : (0x18 ≤ off.toNat ∧ off.toNat ≤ 0x1F) ∨ 0x7C ≤ off.toNat) : Csr.atOffset off = none := by
  cases hr : Csr.atOffset off with
  | none => rfl
  | some r =>
    rw [Csr.offset_of_atOffset ha hr] at h
    exact absurd h r.offset_not_reserved

/-! Reads and writes of the window. -/

@[simp] theorem csrRead_offset (r : Csr) (s : State) : csrRead r.offset s = csrValue r s := by
  simp [csrRead, Csr.atOffset_offset]

theorem csrRead_reserved {off : BitVec 8} (ha : off.toNat % 4 = 0)
    (h : (0x18 ≤ off.toNat ∧ off.toNat ≤ 0x1F) ∨ 0x7C ≤ off.toNat) (s : State) : csrRead off s = 0 := by
  simp [csrRead, Csr.atOffset_reserved ha h]

@[simp] theorem csrWrite_cmd (v : Word) (s : State) : csrWrite Csr.cmd.offset v s = ifIdle (issue v) s := by
  simp [csrWrite, Csr.atOffset_offset]

@[simp] theorem csrWrite_arg (v : Word) (s : State) :
    csrWrite Csr.arg.offset v s = ifIdle (fun s' => s'.setArg v) s := by
  simp [csrWrite, Csr.atOffset_offset]

@[simp] theorem csrWrite_bufw (j : Fin 8) (v : Word) (s : State) :
    csrWrite (Csr.bufw j).offset v s = ifIdle (fun s' => s'.setBuf (bufWordWrite s'.buf j v)) s := by
  simp [csrWrite, Csr.atOffset_offset]

/-- A write anywhere else has no effect (10_state.md R39). -/
theorem csrWrite_not_writable {off : BitVec 8} (h : ∀ r, Csr.atOffset off = some r → ¬r.IsWritable) (v : Word) (s : State) :
    csrWrite off v s = s := by
  unfold csrWrite
  split
  · next hr => exact absurd (.inl rfl) (h _ hr)
  · next hr => exact absurd (.inr (.inl rfl)) (h _ hr)
  · next j hr => exact absurd (.inr (.inr ⟨j, rfl⟩)) (h _ hr)
  all_goals rfl

theorem ifIdle_busy {s : State} (act : State → State) (h : s.status.busy = true) :
    ifIdle act s = s.setStatus (s.status.setWerr true) := by simp [ifIdle, h]

theorem ifIdle_idle {s : State} (act : State → State) (h : s.status.busy = false) : ifIdle act s = act s := by
  simp [ifIdle, h]

/-- A write of a writable register while busy (10_state.md R41). -/
theorem csrWrite_busy {r : Csr} (hr : r.IsWritable) {s : State} (h : s.status.busy = true) (v : Word) :
    csrWrite r.offset v s = s.setStatus (s.status.setWerr true) := by
  obtain rfl | rfl | ⟨j, rfl⟩ := hr
  · rw [csrWrite_cmd, ifIdle_busy _ h]
  · rw [csrWrite_arg, ifIdle_busy _ h]
  · rw [csrWrite_bufw, ifIdle_busy _ h]

/-- All that a write of the window can do. -/
theorem csrWrite_cases (off : BitVec 8) (v : Word) (s : State) :
    csrWrite off v s = s
      ∨ (s.status.busy = true ∧ csrWrite off v s = s.setStatus (s.status.setWerr true))
      ∨ (s.status.busy = false
        ∧ (csrWrite off v s = issue v s ∨ csrWrite off v s = s.setArg v ∨ ∃ x, csrWrite off v s = s.setBuf x)) := by
  have key {act : State → State} (h : csrWrite off v s = ifIdle act s)
      (ha : act s = issue v s ∨ act s = s.setArg v ∨ ∃ x, act s = s.setBuf x) :
      (s.status.busy = true ∧ csrWrite off v s = s.setStatus (s.status.setWerr true))
        ∨ (s.status.busy = false
          ∧ (csrWrite off v s = issue v s ∨ csrWrite off v s = s.setArg v ∨ ∃ x, csrWrite off v s = s.setBuf x)) := by
    rw [h]
    obtain hb | ⟨hb, he⟩ := ifIdle_cases act s
    · exact .inl hb
    · rw [he]; exact .inr ⟨hb, ha⟩
  cases hr : Csr.atOffset off with
  | none => exact .inl (csrWrite_not_writable (fun r h => by rw [hr] at h; cases h) v s)
  | some r =>
    cases r with
    | cmd => exact .inr (key (by simp [csrWrite, hr]) (.inl rfl))
    | arg => exact .inr (key (act := fun s' => s'.setArg v) (by simp [csrWrite, hr]) (.inr (.inl rfl)))
    | bufw j =>
      exact .inr (key (act := fun s' => s'.setBuf (bufWordWrite s'.buf j v)) (by simp [csrWrite, hr]) (.inr (.inr ⟨_, rfl⟩)))
    | _ => exact .inl (by simp [csrWrite, hr])

/-! The host's turn. -/

theorem isAligned_iff {off : BitVec 8} : isAligned off = true ↔ off.toNat % 4 = 0 := by simp [isAligned]

theorem hostAccess_load {off : BitVec 8} (h : isAligned off = true) (s : State) :
    hostAccess (.load .word off) s = .next (advanceHost (returnWord (csrRead off s) s)) := by
  simp [hostAccess, ifAdmitted, h]

theorem hostAccess_store {off : BitVec 8} (h : isAligned off = true) (v : Word) (s : State) :
    hostAccess (.store .word off v) s = .next (advanceHost (csrWrite off v s)) := by
  simp [hostAccess, ifAdmitted, h]

/-- A turn of the host, named by the agenda. -/
theorem step_host {s : State} {rest : List Event} {op : HostOp} {ops : List HostOp} (ha : s.agenda = .host :: rest)
    (hp : s.host.prog = op :: ops) : step s = hostAccess op (s.setAgenda rest) := by
  rw [step_of_agenda ha]
  simp [runEvent, hostTurn, hp]

theorem advanceHost_of_prog {s : State} {op : HostOp} {ops : List HostOp} (h : s.host.prog = op :: ops) :
    advanceHost s = s.setHost { prog := ops, readData := s.host.readData } := by
  simp [advanceHost, h]

/-! The words the host reads, field by field. -/

/-- A bit above the low part of a join is a bit of its high part. -/
theorem getLsbD_append_high {m n k : Nat} (h : n ≤ k) (x : BitVec m) (y : BitVec n) :
    (x ++ y).getLsbD k = x.getLsbD (k - n) := by
  rw [BitVec.getLsbD_append, if_neg (by omega)]

/-- The one bit of a flag that stands lowest in a join. -/
theorem getLsbD_append_flag {m : Nat} (x : BitVec m) (b : Bool) : (x ++ flagBit b).getLsbD 0 = b := by
  rw [BitVec.getLsbD_append, if_pos (by decide)]
  simp [flagBit]

/-- The host's view of `STATUS` (10_state.md R25). -/
theorem Status.word_fields (t : Status) :
    t.word.getLsbD 0 = t.busy ∧ t.word.getLsbD 1 = t.done ∧ t.word.getLsbD 2 = t.ok ∧ t.word.getLsbD 3 = t.chValid
      ∧ t.word.getLsbD 4 = t.sortedValid ∧ t.word.getLsbD 5 = t.werr ∧ t.word.extractLsb' 6 2 = t.bank
      ∧ t.word.extractLsb' 8 4 = t.err ∧ t.word.extractLsb' 12 20 = 0#20 := by
  unfold Status.word
  refine ⟨?_, ?_, ?_, ?_, ?_, ?_, ?_, ?_, ?_⟩
  case refine_1 | refine_2 | refine_3 | refine_4 | refine_5 | refine_6 =>
    repeat rw [getLsbD_append_high (by decide)]
    exact getLsbD_append_flag _ _
  case refine_7 | refine_8 =>
    repeat rw [BitVec.extractLsb'_append_eq_of_le (by decide)]
    exact BitVec.extractLsb'_append_eq_right
  case refine_9 =>
    repeat rw [BitVec.extractLsb'_append_eq_of_le (by decide)]
    exact BitVec.extractLsb'_eq_self

/-- The host's view of `RESULT` (10_state.md R35). -/
theorem Result.word_fields (t : Result) :
    t.word.extractLsb' 0 8 = t.idValue ∧ t.word.extractLsb' 8 8 = t.rcount ∧ t.word.extractLsb' 16 16 = t.txcount := by
  unfold Result.word
  refine ⟨?_, ?_, ?_⟩
  · exact BitVec.extractLsb'_append_eq_right
  · rw [BitVec.extractLsb'_append_eq_of_le (by decide)]
    exact BitVec.extractLsb'_append_eq_right
  · repeat rw [BitVec.extractLsb'_append_eq_of_le (by decide)]
    exact BitVec.extractLsb'_eq_self

/-- Two halves joined, the first one low (10_state.md R37, R38). -/
theorem extract_halves (hi lo : Half) :
    (hi ++ lo : Word).extractLsb' 0 16 = lo ∧ (hi ++ lo : Word).extractLsb' 16 16 = hi :=
  ⟨BitVec.extractLsb'_append_eq_right, BitVec.extractLsb'_append_eq_left⟩

/-- Byte `k` of `BUFW j` is `BUF[4j+k]` (10_state.md R36). -/
theorem bufWord_byte (buf : Vector Byte 32) (j : Fin 8) (k : Fin 4) :
    (bufWord buf j).extractLsb' (8 * k.val) 8 = buf[4 * j.val + k.val] := by
  unfold bufWord
  fin_cases k
  · exact BitVec.extractLsb'_append_eq_right
  · rw [BitVec.extractLsb'_append_eq_of_le (by decide)]
    exact BitVec.extractLsb'_append_eq_right
  · repeat rw [BitVec.extractLsb'_append_eq_of_le (by decide)]
    exact BitVec.extractLsb'_append_eq_right
  · repeat rw [BitVec.extractLsb'_append_eq_of_le (by decide)]
    exact BitVec.extractLsb'_eq_self

/-- Words with the same four bytes are the same. -/
theorem word_ext_bytes {x y : Word} (h : ∀ k : Fin 4, x.extractLsb' (8 * k.val) 8 = y.extractLsb' (8 * k.val) 8) : x = y := by
  refine BitVec.eq_of_getLsbD_eq fun i hi => ?_
  have hbyte := congrArg (·.getLsbD (i % 8)) (h ⟨i / 8, by omega⟩)
  have hlt : i % 8 < 8 := Nat.mod_lt i (by decide)
  simpa only [BitVec.getLsbD_extractLsb', hlt, decide_true, Bool.true_and, Nat.div_add_mod] using hbyte

/-- What a host write of `BUFW j` leaves in byte `k` (10_state.md R36). -/
theorem bufWordWrite_get (buf : Vector Byte 32) (j : Fin 8) (v : Word) (k : Nat) (hk : k < 32) :
    (bufWordWrite buf j v)[k] = if k / 4 = j.val then v.extractLsb' (8 * (k % 4)) 8 else buf[k] := by
  simp [bufWordWrite]

theorem bufWordWrite_byte (buf : Vector Byte 32) (j : Fin 8) (v : Word) (k : Fin 4) :
    (bufWordWrite buf j v)[4 * j.val + k.val] = v.extractLsb' (8 * k.val) 8 := by
  rw [bufWordWrite_get, if_pos (by omega), show (4 * j.val + k.val) % 4 = k.val by omega]

/-- `BUFW j` reads back as written (10_state.md R36). -/
theorem bufWord_bufWordWrite (buf : Vector Byte 32) (j : Fin 8) (v : Word) : bufWord (bufWordWrite buf j v) j = v :=
  word_ext_bytes fun k => (bufWord_byte _ j k).trans (bufWordWrite_byte buf j v k)

/-! Reset. -/

/-- Nothing that an environment draw leaves changes the kind of the target. -/
theorem Target.storeAll_kind (p : Params) (xs : List (BitVec 8 × Byte)) :
    ∀ t : Target, (t.storeAll p xs).kind = t.kind := by
  induction xs with
  | nil => intro t; rfl
  | cons x xs ih => intro t; exact (ih _).trans (Target.storeReg_kind p x.1 x.2 t).1

theorem Target.cutOff_kind (p : Params) (a : BitVec 7) (cut : Leftover) (t : Target) : (t.cutOff p a cut).kind = t.kind := by
  show (t.disturb p a cut).kind = t.kind
  unfold Target.disturb
  split
  · exact Target.storeAll_kind p cut.stores t
  · rfl

/-- A cut transaction to another address leaves the device (20_memory.md R77). -/
theorem Target.cutOff_elsewhere {p : Params} {a : BitVec 7} (h : a ≠ p.devAddr) (cut : Leftover) (t : Target) :
    t.cutOff p a cut = (t.setScript (dropSilence t.script)).setDraws (t.draws + 1) := by
  unfold Target.cutOff
  rw [Target.disturb_elsewhere h]

/-- Whatever is cut, the controller is as `resetController` leaves it; only the target may differ (70_reset_and_hazards.md R260). -/
theorem hostReset_eq (cut : Leftover) (s : State) :
    hostReset cut s = (resetController s).setTarget (hostReset cut s).target := by
  obtain ⟨-, h⟩ | ⟨a, -, h⟩ := hostReset_cases cut s
  · rw [h]; rfl
  · rw [h]; rfl

/-- The target stays where no transaction is in progress. -/
theorem hostReset_target_of_not_pending {s : State} (h : pendingAddress s = none) (cut : Leftover) :
    (hostReset cut s).target = s.target := by
  simp [hostReset, h]

theorem hostReset_target_kind (cut : Leftover) (s : State) : (hostReset cut s).target.kind = s.target.kind := by
  obtain ⟨-, h⟩ | ⟨a, -, h⟩ := hostReset_cases cut s
  · rw [h]; rfl
  · rw [h]; exact Target.cutOff_kind s.params a cut s.target

theorem hostReset_sound {s : State} (hs : s.target.Sound) (cut : Leftover) : (hostReset cut s).target.Sound := by
  obtain ⟨-, h⟩ | ⟨a, -, h⟩ := hostReset_cases cut s
  · rw [h]; exact hs
  · rw [h]; exact Target.sound_cutOff hs s.params a cut

/-- No transaction is in progress unless a command stands at one. -/
theorem pendingAddress_none {s : State}
    (h : ∀ c i, s.status.busy = true → s.ctx = some c → decode s.cmd = .ok i → ¬atTransaction i c s) :
    pendingAddress s = none := by
  rw [Option.eq_none_iff_forall_ne_some]
  intro a ha
  obtain ⟨hb, c, i, hc, hi, hat, -⟩ := pendingAddress_eq_some.mp ha
  exact h c i hb hc hi hat

/-- A reset during a raw command to another address leaves the device (70_reset_and_hazards.md R260). -/
theorem hostReset_sameDevice {s : State} {i : Instr} (hi : decode s.cmd = .ok i) (ha : busAddress i s ≠ s.params.devAddr)
    (cut : Leftover) : (∀ b, s.target.SameAt b (hostReset cut s).target) ∧ (hostReset cut s).target.ptr = s.target.ptr := by
  obtain ⟨-, h⟩ | ⟨a, hp, h⟩ := hostReset_cases cut s
  · rw [h]; exact ⟨fun b => .refl b _, rfl⟩
  · obtain ⟨-, c, i', -, hi', -, rfl⟩ := pendingAddress_eq_some.mp hp
    cases hi.symm.trans hi'
    rw [h, State.setTarget_target, Target.cutOff_elsewhere ha]
    exact ⟨fun b => ⟨rfl, rfl, rfl⟩, rfl⟩

end Sys2Proof.Machine
end

section
/-! SUPPORT. Every turn of every agent keeps the invariant (10_state.md R26, R31, R47). -/

namespace Sys2Proof.Machine

/-! Issue and completion. -/

theorem issue_inv {s : State} (hs : s.Inv) (w : Word) : (issue w s).Inv := by
  obtain ⟨-, ⟨-, -, hbank, -⟩, hview, hsound⟩ := hs
  obtain ⟨hfit, hread⟩ := start_fits (s := issue w s) (c := Ctx.fresh) rfl
  refine ⟨(contextSound_busy (issue_ctx s w)).mpr ⟨rfl, hfit, hread, by decide⟩, ⟨?_, ?_, hbank, Nat.zero_le 7⟩, hview, hsound⟩
  · exact fun _ => ⟨rfl, rfl, rfl⟩
  · exact nofun

theorem fail_inv {s : State} (hs : s.Inv) (code : ErrCode) : (fail code s).Inv := by
  obtain ⟨-, ⟨-, -, hbank, -⟩, hview, hsound⟩ := hs
  refine ⟨(contextSound_idle (fail_ctx s code)).mpr rfl, ⟨?_, ?_, hbank, code.code_le⟩, hview, hsound⟩
  · exact nofun
  · exact nofun

/-! The host. -/

theorem setWerr_inv {s : State} (hs : s.Inv) (x : Bool) : (s.setStatus (s.status.setWerr x)).Inv := hs

theorem csrWrite_inv {s : State} (hs : s.Inv) (off : BitVec 8) (v : Word) : (csrWrite off v s).Inv := by
  obtain h | ⟨-, h⟩ | ⟨-, h | h | ⟨x, h⟩⟩ := csrWrite_cases off v s
  · rw [h]; exact hs
  · rw [h]; exact setWerr_inv hs true
  · rw [h]; exact issue_inv hs v
  · rw [h]; exact hs
  · rw [h]; exact hs

theorem Status.reset_sound : StatusSound Status.reset := ⟨nofun, nofun, by decide, by decide⟩

theorem hostReset_inv {s : State} (hs : s.Inv) (cut : Leftover) : (hostReset cut s).Inv := by
  have hsound := hostReset_sound hs.sound cut
  rw [hostReset_eq]
  exact ⟨(contextSound_idle rfl).mpr rfl, Status.reset_sound, nofun, hsound⟩

theorem returnWord_inv {s : State} (hs : s.Inv) (v : Word) : (returnWord v s).Inv := hs

theorem advanceHost_inv {s : State} (hs : s.Inv) : (advanceHost s).Inv := hs

theorem hostAccess_inv {s t : State} {op : HostOp} (hs : s.Inv) (h : hostAccess op s = .next t) : t.Inv := by
  cases op with
  | load w off =>
    obtain ⟨-, -, rfl⟩ := ifAdmitted_next h
    exact advanceHost_inv (returnWord_inv hs _)
  | store w off v =>
    obtain ⟨-, -, rfl⟩ := ifAdmitted_next h
    exact advanceHost_inv (csrWrite_inv hs off v)
  | waitIdle =>
    cases h
    split
    · exact returnWord_inv hs _
    · exact advanceHost_inv (returnWord_inv hs _)
  | reset cut => cases h; exact advanceHost_inv (hostReset_inv hs cut)

theorem hostTurn_inv {s t : State} (hs : s.Inv) (h : hostTurn s = .next t) : t.Inv := by
  unfold hostTurn at h
  split at h
  · cases h; exact hs
  · exact hostAccess_inv hs h

/-! The controller. -/

/-- All that a turn of `CTRL` can do (30_encoding.md R103, R107). -/
theorem ctrlTurn_cases (s : State) :
    (s.status.busy = false ∧ ctrlTurn s = .next s)
      ∨ (∃ i, s.status.busy = true ∧ decode s.cmd = .ok i ∧ ctrlTurn s = exec i s)
      ∨ (∃ e, s.status.busy = true ∧ decode s.cmd = .error e ∧ ctrlTurn s = .next (runIllegal s)) := by
  cases hb : s.status.busy with
  | false => exact .inl ⟨rfl, by simp [ctrlTurn, hb]⟩
  | true =>
    cases hi : decode s.cmd with
    | ok i => exact .inr (.inl ⟨i, rfl, rfl, by simp [ctrlTurn, hb, hi]⟩)
    | error e => exact .inr (.inr ⟨e, rfl, rfl, by simp [ctrlTurn, hb, hi]⟩)

/-- A segment of the command in `CMD` keeps the invariant. -/
theorem exec_inv {i : Instr} {s t : State} (hs : s.Inv) (hi : decode s.cmd = .ok i) (h : exec i s = .next t) : t.Inv := by
  obtain ⟨c, hc, hstep⟩ := exec_segmentStep h
  obtain ⟨hcmd, -⟩ := exec_keepsOutside i s t h
  exact hstep.inv hi hc hcmd hs

theorem ctrlTurn_inv {s t : State} (hs : s.Inv) (h : ctrlTurn s = .next t) : t.Inv := by
  obtain ⟨-, h'⟩ | ⟨i, -, hi, h'⟩ | ⟨e, -, -, h'⟩ := ctrlTurn_cases s
  · rw [h'] at h; cases h; exact hs
  · exact exec_inv hs hi (h' ▸ h)
  · rw [h'] at h; cases h; exact fail_inv hs .illegal

/-! The other agents, and the turns. -/

theorem setTarget_inv {s : State} {g : Target} (hs : s.Inv) (hg : g.Sound) : (s.setTarget g).Inv := by
  obtain ⟨hctx, hstatus, hview, -⟩ := hs
  exact ⟨hctx, hstatus, hview, hg⟩

theorem clockTurn_inv {s : State} (hs : s.Inv) : (clockTurn s).Inv := hs

theorem countOpen_inv {s : State} (hs : s.Inv) : (countOpen s).Inv := by
  obtain ⟨-, h⟩ | ⟨-, h⟩ := countOpen_cases s
  · rw [h]; exact hs
  · rw [h]; exact hs

theorem runEvent_inv {s t : State} {e : Event} (hs : s.Inv) (h : runEvent e s = .next t) : t.Inv := by
  cases e with
  | host => exact hostTurn_inv hs h
  | ctrl => exact ctrlTurn_inv hs h
  | clock => cases h; exact clockTurn_inv hs
  | engine r v => cases h; exact setTarget_inv hs (Target.sound_engineStore hs.sound s.params r v)
  | powerCycle => cases h; exact setTarget_inv hs (Target.sound_powerCycle s.target)

theorem openTurn_inv {s t : State} (hs : s.Inv) (h : openTurn s = .next t) : t.Inv := by
  obtain ⟨-, h'⟩ | ⟨-, h'⟩ := openTurn_cases s
  · exact ctrlTurn_inv (s := s.setSpent (s.spent + 1)) hs (h' ▸ h)
  · rw [h'] at h; cases h; exact clockTurn_inv (countOpen_inv hs)

theorem step_inv {s t : State} (hs : s.Inv) (h : step s = .next t) : t.Inv := by
  cases ha : s.agenda with
  | nil =>
    simp only [step, ha] at h
    exact openTurn_inv hs h
  | cons e rest =>
    rw [step_of_agenda ha] at h
    exact runEvent_inv (s := s.setAgenda rest) hs h

end Sys2Proof.Machine
end

section
/-! SUPPORT. The obligations of 10_state.md. -/

namespace Sys2Proof.Machine

/-! The invariant. -/

/-- Settles O51: each agent's turn keeps the invariant, a turn of `CTRL` because every segment is a call, a change and an
ending of the command in `CMD`. -/
theorem stepKeepsInvariant : Obligations.StepKeepsInvariant := by
  unfold Obligations.StepKeepsInvariant
  intro s t hs h
  exact step_inv hs h

/-- Settles O50. -/
theorem resetMeetsInvariant : Obligations.ResetMeetsInvariant := by
  unfold Obligations.ResetMeetsInvariant
  exact ⟨(contextSound_idle rfl).mpr rfl, Status.reset_sound, nofun, Target.sound_atReset⟩

/-! What segments leave alone. -/

/-- Settles O45, by the parts of a segment. -/
theorem dataRegistersHaveOneWriter : Obligations.DataRegistersHaveOneWriter := by
  unfold Obligations.DataRegistersHaveOneWriter
  intro i s t h
  obtain ⟨c, -, hstep⟩ := exec_segmentStep h
  exact hstep.writesOwnData

/-- Settles O46: the mirror is kept or set by one of the commands that write it, to a legal value. -/
theorem mirrorWriters : Obligations.MirrorWriters := by
  unfold Obligations.MirrorWriters
  intro i s t h
  obtain ⟨c, -, hstep⟩ := exec_segmentStep h
  refine ⟨hstep.bank.imp_right And.right, fun hi => ?_⟩
  obtain hkept | ⟨hm, -⟩ := hstep.bank
  · exact hkept
  · obtain ⟨a, r, n, rfl⟩ | rfl | rfl | rfl | rfl := hi <;> cases hm

/-! The host's accesses. -/

/-- Settles O11. -/
theorem busyHostWriteOnlySetsWerr : Obligations.BusyHostWriteOnlySetsWerr := by
  unfold Obligations.BusyHostWriteOnlySetsWerr
  intro s rest ops r v ha hp hb hr
  rw [step_host ha hp, hostAccess_store r.atOffset_offset.2, csrWrite_busy (s := s.setAgenda rest) hr hb]
  exact congrArg _ (advanceHost_of_prog hp)

/-- Settles O12: no writable register stands at such an offset, and none at all at a reserved one. -/
theorem reservedAndReadOnlyOffsets : Obligations.ReservedAndReadOnlyOffsets := by
  unfold Obligations.ReservedAndReadOnlyOffsets
  intro s off ha
  refine ⟨fun hres => csrRead_reserved ha hres s, fun v hoff => ?_⟩
  have hro : ∀ r, Csr.atOffset off = some r → ¬r.IsWritable := by
    intro r hr hw
    have hrange := hw.offset_range
    rw [← Csr.offset_of_atOffset ha hr] at hrange
    omega
  rw [hostAccess_store (isAligned_iff.mpr ha), csrWrite_not_writable hro]
  rfl

/-- Settles O13. -/
theorem hostReadHasNoSideEffect : Obligations.HostReadHasNoSideEffect := by
  unfold Obligations.HostReadHasNoSideEffect
  intro s rest ops ha
  refine ⟨fun r hp => ?_, fun off hal hres hp => ?_⟩
  · rw [step_host ha hp, hostAccess_load r.atOffset_offset.2, csrRead_offset, advanceHost_of_prog (by exact hp)]
    cases r <;> rfl
  · rw [step_host ha hp, hostAccess_load (isAligned_iff.mpr hal), csrRead_reserved hal hres, advanceHost_of_prog (by exact hp)]
    rfl

/-- Settles O15. -/
theorem bufferWordsAreLittleEndian : Obligations.BufferWordsAreLittleEndian := by
  unfold Obligations.BufferWordsAreLittleEndian
  intro s j v hb
  have hstep : hostAccess (.store .word (Csr.bufw j).offset v) s = .next (advanceHost (s.setBuf (bufWordWrite s.buf j v))) := by
    rw [hostAccess_store (Csr.bufw j).atOffset_offset.2, csrWrite_bufw, ifIdle_idle _ hb]
  have hbyte := bufWordWrite_byte s.buf j v
  have hother (n : Fin 32) (hn : n.val / 4 ≠ j.val) : (bufWordWrite s.buf j v)[n] = s.buf[n] :=
    (bufWordWrite_get s.buf j v n.val n.isLt).trans (if_neg hn)
  have hback := bufWord_bufWordWrite s.buf j v
  generalize bufWordWrite s.buf j v = x at *
  exact ⟨_, hstep, hbyte, hother, hback, rfl, rfl, rfl, rfl⟩

/-- Settles O55. -/
theorem idleWriteToArgStores : Obligations.IdleWriteToArgStores := by
  unfold Obligations.IdleWriteToArgStores
  intro s rest ops w ha hp hb
  rw [step_host ha hp, hostAccess_store (by decide), show (0x04 : BitVec 8) = Csr.arg.offset from rfl, csrWrite_arg,
    ifIdle_idle _ (by exact hb)]
  exact congrArg _ (advanceHost_of_prog hp)

/-- Settles O14, word by word. -/
theorem hostViewOfReadOnlyRegisters : Obligations.HostViewOfReadOnlyRegisters := by
  unfold Obligations.HostViewOfReadOnlyRegisters
  intro s
  exact ⟨s.status.word_fields, s.result.word_fields, rfl, rfl, rfl, rfl, bufWord_byte s.buf, fun _ => extract_halves _ _,
    fun _ => extract_halves _ _,
    ⟨rfl, rfl, rfl, rfl, rfl, rfl, Csr.bufw_offset_toNat, Csr.chw_offset_toNat, Csr.srw_offset_toNat⟩,
    fun r => csrRead_offset r s⟩

/-! Clock and reset. -/

/-- Settles O7. -/
theorem clockTurnCountsOne : Obligations.ClockTurnCountsOne := by
  unfold Obligations.ClockTurnCountsOne
  intro s rest ha
  exact ⟨clockTurn (s.setAgenda rest), step_of_agenda ha, BitVec.toNat_add s.nowMs 1, rfl⟩

/-- Settles O17: the controller's part is `resetController`'s, and the target's depends on the transaction in progress. -/
theorem hostResetValues : Obligations.HostResetValues := by
  unfold Obligations.HostResetValues
  intro s cut
  refine ⟨advanceHost (hostReset cut s), rfl, ?_⟩
  have hkind := hostReset_target_kind cut s
  have hidle (h : pendingAddress s = none) := hostReset_target_of_not_pending h cut
  have hdevice {i : Instr} (hi : decode s.cmd = .ok i) (ha : busAddress i s ≠ s.params.devAddr) :=
    hostReset_sameDevice hi ha cut
  rw [hostReset_eq]
  refine ⟨rfl, rfl, (by decide : Status.reset.word = 0x000000C0), rfl, (by decide : Result.reset.word = 0),
    by simp, by simp, by simp, rfl, rfl, rfl, hkind, fun h => ?_, fun c hc h => ?_, fun a r n ha h => ?_⟩
  · exact hidle (pendingAddress_none fun c i hb hc _ => by simp [hb, hc] at h)
  · refine hidle (pendingAddress_none fun c' i _ hc' hi => ?_)
    cases hc.symm.trans hc'
    exact h i hi
  · obtain hi | hi := h
    · exact hdevice hi ha
    · exact hdevice hi ha

end Sys2Proof.Machine
end

section
/-! SUPPORT. The one transaction a segment can make (30_encoding.md R107, 40_bus_adapter.md R133): to which address, and for a
write to the device which registers it covers. What a segment leaves of the target is read off it. -/

namespace Sys2Proof.Machine

/-! A transaction to another address (20_memory.md R77). -/

/-- Finding the answer to a transaction leaves the pointer. -/
theorem Target.nextAnswer_ptr (t : Target) : t.nextAnswer.2.ptr = t.ptr := by
  unfold Target.nextAnswer Target.ownAnswer
  split
  · split <;> rfl
  · rfl
  · split <;> rfl

theorem Target.point_elsewhere {p : Params} {a : BitVec 7} (h : a ≠ p.devAddr) (r : BitVec 8) (m : Nat) (t : Target) :
    t.point p a r m = t := by simp [Target.point, Target.isDevice, h, Target.setPtr]

/-- Nothing but finding the answer happens to the target, whatever the answer is. -/
theorem Target.write_elsewhere {p : Params} {a : BitVec 7} (h : a ≠ p.devAddr) {r : BitVec 8} {bytes : List Byte}
    {t t' : Target} {o : WriteOutcome} (hw : t.write p a r bytes = some (o, t')) : t' = t.nextAnswer.2 := by
  simp only [Target.write, Target.absorb_elsewhere h, Target.disturb_elsewhere h, if_neg h] at hw
  split at hw
  · next heq => rw [heq]; cases hw; rfl
  · cases hw
  · next heq => rw [heq]; cases hw; rfl
  · next heq => rw [heq]; split at hw <;> cases hw <;> rfl
  · next heq => rw [heq]; cases hw; rfl
  · next heq => rw [heq]; cases hw; rfl

theorem Target.read_elsewhere {p : Params} {a : BitVec 7} (h : a ≠ p.devAddr) {r : BitVec 8} {n : Nat} {t t' : Target}
    {o : PointerOutcome} {bytes : List Byte} (hr : t.read p a r n = some (o, bytes, t')) : t' = t.nextAnswer.2 := by
  simp only [Target.read, Target.point_elsewhere h, Target.disturb_elsewhere h, if_neg h] at hr
  split at hr
  · next heq => rw [heq]; cases hr; rfl
  · cases hr
  all_goals next heq => rw [heq]; cases hr; rfl

@[refl] theorem sameDevice.refl (s : State) : sameDevice s s := ⟨fun a => .refl a _, rfl⟩

theorem sameDevice_of_target_eq_nextAnswer {s t : State} (h : t.target = s.target.nextAnswer.2) : sameDevice s t := by
  unfold sameDevice
  rw [h]
  exact ⟨fun a => Target.nextAnswer_same a _, Target.nextAnswer_ptr _⟩

theorem busWrite_elsewhere {a : BitVec 7} {r : BitVec 8} {bytes : List Byte} {s s' : State} {o : WriteOutcome}
    (ha : a ≠ s.params.devAddr) (h : busWrite a r bytes s = some (o, s')) : sameDevice s s' := by
  obtain ⟨t, ht, rfl⟩ := busWrite_spec h
  exact sameDevice_of_target_eq_nextAnswer (Target.write_elsewhere ha ht)

theorem busRead_elsewhere {a : BitVec 7} {r : BitVec 8} {n : Nat} {s s' : State} {x : ErrCode × List Byte}
    (ha : a ≠ s.params.devAddr) (h : busRead a r n s = some (x, s')) : sameDevice s s' := by
  obtain ⟨o, bs, t, ht, hcase⟩ := busRead_spec (code := x.1) (bytes := x.2) h
  have hsame := Target.read_elsewhere ha ht
  obtain ⟨-, -, -, rfl⟩ | ⟨-, -, -, rfl⟩ := hcase
  · exact sameDevice_of_target_eq_nextAnswer hsame
  · exact sameDevice_of_target_eq_nextAnswer hsame

/-! What a segment does to the target. -/

/-- The target after one segment of `i` at `c` from `s`: untouched, or as one transaction to the command's address left it. A
write to the device covers the registers of `storedSpan`. -/
inductive TargetStep (i : Instr) (c : Ctx) (s : State) : Target → Prop
  | untouched : TargetStep i c s s.target
  | afterRead {r : BitVec 8} {n : Nat} {x : ErrCode × List Byte} {s' : State}
      (hr : busRead (busAddress i s) r n s = some (x, s')) : TargetStep i c s s'.target
  | afterWrite {r : BitVec 8} {bytes : List Byte} {o : WriteOutcome} {s' : State}
      (hw : busWrite (busAddress i s) r bytes s = some (o, s'))
      (hspan : busAddress i s = s.params.devAddr → storedSpan i c s = (r.toNat, bytes.length))
      (htop : r.toNat + bytes.length ≤ 256) : TargetStep i c s s'.target

/-- A segment of `i` at `c` from `s`, if it answers next. -/
def StepsTarget (i : Instr) (c : Ctx) (s : State) (o : Out) : Prop := ∀ t, o = .next t → TargetStep i c s t.target

/-- The rest of a segment after its primitive call: it makes no further transaction. -/
def KeepsTarget (k : State → State) : Prop := ∀ s, (k s).target = s.target

theorem keepsTarget_ite {p : Prop} [Decidable p] {f g : State → State} (hf : KeepsTarget f) (hg : KeepsTarget g) :
    KeepsTarget fun s => if p then f s else g s := by
  intro s
  dsimp only
  split
  · exact hf s
  · exact hg s

theorem KeepsTarget.comp {f g : State → State} (hf : KeepsTarget f) (hg : KeepsTarget g) : KeepsTarget fun s => g (f s) :=
  fun s => (hg (f s)).trans (hf s)

theorem keepsTarget_resume (c : Ctx) : KeepsTarget (resume c) := resume_target (c := c)

theorem keepsTarget_fail (code : ErrCode) : KeepsTarget (fail code) := fail_target (code := code)

theorem keepsTarget_succeed : KeepsTarget succeed := succeed_target

theorem keepsTarget_setMirror (m : BitVec 2) : KeepsTarget (setMirror m) := setMirror_target (m := m)

theorem keepsTarget_setBuf (f : State → Vector Byte 32) : KeepsTarget fun s => s.setBuf (f s) :=
  fun s => State.setBuf_target s (f s)

theorem keepsTarget_finishIdentity (c : Ctx) (c3 : ErrCode) : KeepsTarget (finishIdentity c c3) := fun _ => rfl

theorem keepsTarget_snoop (a : BitVec 7) (r : BitVec 8) (n : BitVec 6) (o : WriteOutcome) : KeepsTarget (snoop a r n o) :=
  fun s => by rw [snoop_mirror, setMirror_target]

theorem keepsTarget_storeChannel (c : Ctx) {finish : State → State} (hf : KeepsTarget finish) (bytes : List Byte) :
    KeepsTarget (storeChannel c finish bytes) := by
  intro s
  unfold storeChannel
  dsimp only
  split
  · rfl
  · exact hf _

/-! The ways to run a segment. -/

section Rules

variable {i : Instr} {c : Ctx} {s : State}

theorem stepsTarget_next {t : State} (h : t.target = s.target) : StepsTarget i c s (.next t) := by
  intro u hu
  cases hu
  rw [h]
  exact .untouched

theorem stepsTarget_fault (f : Fault) : StepsTarget i c s (.fault f) := by
  intro t ht; cases ht

theorem onRead_stepsTarget {a : BitVec 7} {r : BitVec 8} {n : Nat} {k : ErrCode → List Byte → State → State}
    (ha : busAddress i s = a) (hk : ∀ code bytes, KeepsTarget (k code bytes)) : StepsTarget i c s (onRead a r n s k) := by
  intro t ht
  refine onRead_elim (P := fun u => TargetStep i c s u.target) ht .untouched fun code bytes s' hr => ?_
  rw [hk code bytes s']
  exact .afterRead (ha ▸ hr)

theorem onWrite_stepsTarget {a : BitVec 7} {r : BitVec 8} {bytes : List Byte} {k : WriteOutcome → State → State}
    (ha : busAddress i s = a) (hspan : a = s.params.devAddr → storedSpan i c s = (r.toNat, bytes.length))
    (htop : r.toNat + bytes.length ≤ 256) (hk : ∀ o, KeepsTarget (k o)) : StepsTarget i c s (onWrite a r bytes s k) := by
  subst ha
  intro t ht
  refine onWrite_elim (P := fun u => TargetStep i c s u.target) ht .untouched fun o s' hw => ?_
  rw [hk o s']
  exact .afterWrite hw hspan htop

theorem rd_stepsTarget {r : BitVec 8} {n : Nat} {k : List Byte → State → State} (ha : busAddress i s = s.params.devAddr)
    (hk : ∀ bytes, KeepsTarget (k bytes)) : StepsTarget i c s (rd r n s k) :=
  onRead_stepsTarget ha fun code bytes => keepsTarget_ite (hk bytes) (keepsTarget_fail code)

theorem rmwRead_stepsTarget (r : BitVec 8) (next : Seg) (ha : busAddress i s = s.params.devAddr) :
    StepsTarget i c s (rmwRead r next c s) := rd_stepsTarget ha fun _ => keepsTarget_resume _

theorem tryBankRead_stepsTarget {k : ErrCode → Byte → State → State} (ha : busAddress i s = s.params.devAddr)
    (hk : ∀ code v, KeepsTarget (k code v)) : StepsTarget i c s (tryBankRead s k) :=
  onRead_stepsTarget ha fun code bytes => hk code (bytes.headD 0)

theorem waitPoll_stepsTarget {k : State → State} (ha : busAddress i s = s.params.devAddr) (hk : KeepsTarget k) :
    StepsTarget i c s (waitPoll c s k) := rd_stepsTarget ha fun _ => keepsTarget_ite hk (keepsTarget_resume _)

/-- The driver's writes are of one byte (40_bus_adapter.md R133, R134). -/
theorem wr_stepsTarget {r : BitVec 8} {v : Byte} {k : State → State} (ha : busAddress i s = s.params.devAddr)
    (hspan : storedSpan i c s = (r.toNat, 1)) (hk : KeepsTarget k) : StepsTarget i c s (wr r [v] s k) :=
  onWrite_stepsTarget ha (fun _ => hspan) r.isLt fun _ => keepsTarget_ite hk (keepsTarget_fail .nack)

theorem tryBankWrite_stepsTarget {b : BitVec 1} {k : ErrCode → State → State} (ha : busAddress i s = s.params.devAddr)
    (hspan : storedSpan i c s = (s.params.cfg0Reg.toNat, 1)) (hk : ∀ code, KeepsTarget (k code)) :
    StepsTarget i c s (tryBankWrite b c s k) :=
  onWrite_stepsTarget ha (fun _ => hspan) s.params.cfg0Reg.isLt fun _ =>
    keepsTarget_ite ((keepsTarget_setMirror _).comp (hk _)) ((keepsTarget_setMirror _).comp (hk _))

theorem selectBankWrite_stepsTarget {b : BitVec 1} {k : State → State} (ha : busAddress i s = s.params.devAddr)
    (hspan : storedSpan i c s = (s.params.cfg0Reg.toNat, 1)) (hk : KeepsTarget k) :
    StepsTarget i c s (selectBankWrite b c s k) :=
  tryBankWrite_stepsTarget ha hspan fun code => keepsTarget_ite hk (keepsTarget_fail code)

theorem waitTimeCheck_stepsTarget : StepsTarget i c s (waitTimeCheck c s) :=
  stepsTarget_next (keepsTarget_ite (keepsTarget_fail .timeout) (keepsTarget_resume _) s)

theorem inCommand_stepsTarget {k : Ctx → Out} (hc : s.ctx = some c) (hk : StepsTarget i c s (k c)) :
    StepsTarget i c s (inCommand s k) := by
  rw [inCommand_some hc]; exact hk

end Rules

/-! The commands, by their positions (30_encoding.md R107). -/

section Commands

variable {s : State} {c : Ctx}

/-- The data of `WRITE` are as many bytes as the word asks for (40_bus_adapter.md R136). -/
theorem bufPrefix_length (buf : Vector Byte 32) {n : Nat} (hn : n ≤ 32) : (bufPrefix buf n).length = n := by
  simpa [bufPrefix] using hn

theorem execWrite_stepsTarget (a : BitVec 7) (r : BitVec 8) (n : BitVec 6) (hc : s.ctx = some c) :
    StepsTarget (.write a r n) c s (execWrite a r n s) := by
  refine inCommand_stepsTarget hc ?_
  split
  · split
    · next hok =>
      have hburst := burstOk_iff.mp hok
      have hlen := bufPrefix_length s.buf hburst.2.1
      refine onWrite_stepsTarget rfl (fun ha => ?_) (by omega) fun o =>
        keepsTarget_ite ((keepsTarget_snoop a r n o).comp keepsTarget_succeed)
          ((keepsTarget_snoop a r n o).comp (keepsTarget_fail .nack))
      rw [hlen]
      exact if_pos ⟨ha, hburst⟩
    · exact stepsTarget_next rfl
  · exact stepsTarget_fault _

theorem execRead_stepsTarget (a : BitVec 7) (r : BitVec 8) (n : BitVec 6) (hc : s.ctx = some c) :
    StepsTarget (.read a r n) c s (execRead a r n s) := by
  refine inCommand_stepsTarget hc ?_
  split
  · split
    · have hfill (bytes : List Byte) := keepsTarget_setBuf fun s' => bufFill s'.buf bytes
      exact onRead_stepsTarget rfl fun code bytes =>
        keepsTarget_ite ((hfill bytes).comp keepsTarget_succeed) ((hfill bytes).comp (keepsTarget_fail code))
    · exact stepsTarget_next rfl
  · exact stepsTarget_fault _

theorem execSetBank_stepsTarget (hc : s.ctx = some c) : StepsTarget .setBank c s (execSetBank s) := by
  refine inCommand_stepsTarget hc ?_
  cases hseg : c.seg with
  | start => exact rmwRead_stepsTarget _ _ rfl
  | bankWrite => exact selectBankWrite_stepsTarget rfl (if_pos hseg) keepsTarget_succeed
  | _ => exact stepsTarget_fault _

theorem execIsConnected_stepsTarget (hc : s.ctx = some c) : StepsTarget .isConnected c s (execIsConnected s) := by
  have hresume {p : Prop} [Decidable p] (c₁ c₂ : Ctx) : KeepsTarget fun s' => if p then resume c₁ s' else resume c₂ s' :=
    keepsTarget_ite (keepsTarget_resume c₁) (keepsTarget_resume c₂)
  refine inCommand_stepsTarget hc ?_
  cases hseg : c.seg with
  | start => exact tryBankRead_stepsTarget rfl fun _ _ => hresume _ _
  | bankWrite => exact tryBankWrite_stepsTarget rfl (by simp [storedSpan, hseg]) fun _ => hresume _ _
  | idRead => exact onRead_stepsTarget rfl fun _ _ => keepsTarget_ite (fun _ => rfl) (keepsTarget_resume _)
  | backRead =>
    exact tryBankRead_stepsTarget rfl fun code _ => keepsTarget_ite (keepsTarget_resume _) (keepsTarget_finishIdentity c code)
  | backWrite => exact tryBankWrite_stepsTarget rfl (by simp [storedSpan, hseg]) (keepsTarget_finishIdentity c)
  | _ => exact stepsTarget_fault _

theorem execInit_stepsTarget (hc : s.ctx = some c) : StepsTarget .init c s (execInit s) := by
  refine inCommand_stepsTarget hc ?_
  cases hseg : c.seg with
  | start | ponRead | smuxRead | gainRead | spenRead => exact rmwRead_stepsTarget _ _ rfl
  | bankWrite => exact selectBankWrite_stepsTarget rfl (by simp [storedSpan, hseg]) (keepsTarget_resume _)
  | delayStart | delayLoop => exact stepsTarget_next rfl
  | ponWrite | smuxWrite | gainWrite => exact wr_stepsTarget rfl (by simp [storedSpan, hseg]) (keepsTarget_resume _)
  | spenWrite => exact wr_stepsTarget rfl (by simp [storedSpan, hseg]) keepsTarget_succeed
  | _ => exact stepsTarget_fault _

theorem execSetGain_stepsTarget (hc : s.ctx = some c) : StepsTarget .setGain c s (execSetGain s) := by
  refine inCommand_stepsTarget hc ?_
  split
  · split
    · exact stepsTarget_next rfl
    · split
      · exact stepsTarget_next rfl
      · exact rmwRead_stepsTarget _ _ rfl
  · next hseg => exact wr_stepsTarget rfl (if_pos hseg) keepsTarget_succeed
  · exact stepsTarget_fault _

theorem execSetItime_stepsTarget (hc : s.ctx = some c) : StepsTarget .setItime c s (execSetItime s) := by
  refine inCommand_stepsTarget hc ?_
  split
  · next hseg =>
    split
    · exact stepsTarget_next rfl
    · exact wr_stepsTarget rfl (by simp [storedSpan, hseg]) (keepsTarget_resume _)
  · next hseg => exact wr_stepsTarget rfl (by simp [storedSpan, hseg]) (keepsTarget_resume _)
  · next hseg => exact wr_stepsTarget rfl (by simp [storedSpan, hseg]) keepsTarget_succeed
  · exact stepsTarget_fault _

theorem execSetTimeout_stepsTarget (hc : s.ctx = some c) : StepsTarget .setTimeout c s (execSetTimeout s) := by
  refine inCommand_stepsTarget hc ?_
  split
  · exact stepsTarget_next rfl
  · exact stepsTarget_fault _

theorem execWaitDataReady_stepsTarget (hc : s.ctx = some c) : StepsTarget .waitDataReady c s (execWaitDataReady s) := by
  refine inCommand_stepsTarget hc ?_
  cases c.seg with
  | start => exact stepsTarget_next rfl
  | waitCheck => exact waitTimeCheck_stepsTarget
  | poll => exact waitPoll_stepsTarget rfl keepsTarget_succeed
  | _ => exact stepsTarget_fault _

/-- `READ_ALL` and `GET_SORTED` share every position; they differ in `finish` only (43_acquisition.md R188). -/
theorem acquire_stepsTarget {i : Instr} {finish : State → State} (ha : busAddress i s = s.params.devAddr)
    (hspan : storedSpan i c s = oneAt .bankWrite s.params.cfg0Reg c) (hc : s.ctx = some c) (hf : KeepsTarget finish) :
    StepsTarget i c s (acquire finish s) := by
  refine inCommand_stepsTarget hc ?_
  cases hseg : c.seg with
  | start => exact tryBankRead_stepsTarget ha fun _ _ => keepsTarget_ite (fun _ => rfl) fun _ => rfl
  | bankWrite => exact selectBankWrite_stepsTarget ha (hspan.trans (if_pos hseg)) (keepsTarget_resume _)
  | waitStart => exact stepsTarget_next rfl
  | waitCheck => exact waitTimeCheck_stepsTarget
  | poll => exact waitPoll_stepsTarget ha (keepsTarget_resume _)
  | channel => exact rd_stepsTarget ha (keepsTarget_storeChannel c hf)
  | _ => exact stepsTarget_fault _

/-- Every segment of every command makes at most one transaction, to the command's address and over its span. -/
theorem exec_targetStep {i : Instr} {t : State} (hc : s.ctx = some c) (h : exec i s = .next t) :
    TargetStep i c s t.target := by
  revert t
  show StepsTarget i c s (exec i s)
  cases i with
  | write a r n => exact execWrite_stepsTarget a r n hc
  | read a r n => exact execRead_stepsTarget a r n hc
  | setBank => exact execSetBank_stepsTarget hc
  | isConnected => exact execIsConnected_stepsTarget hc
  | init => exact execInit_stepsTarget hc
  | setGain => exact execSetGain_stepsTarget hc
  | setItime => exact execSetItime_stepsTarget hc
  | setTimeout => exact execSetTimeout_stepsTarget hc
  | waitDataReady => exact execWaitDataReady_stepsTarget hc
  | readAll | getSorted => exact acquire_stepsTarget rfl rfl hc fun _ => rfl

end Commands

/-! What a segment leaves of the target. -/

/-- Outside the span, a register changes only where a failed draw lists it (20_memory.md R77, 40_bus_adapter.md R130). -/
theorem TargetStep.sameAt {i : Instr} {c : Ctx} {s : State} {t : Target} (h : TargetStep i c s t) {a : Nat}
    (ha : a < (storedSpan i c s).1 ∨ (storedSpan i c s).1 + (storedSpan i c s).2 ≤ a) (hn : notLeftOver a s) :
    s.target.SameAt a t := by
  cases h with
  | untouched => rfl
  | afterRead hr => exact busRead_other hr hn
  | afterWrite hw hspan htop =>
    by_cases hdev : busAddress i s = s.params.devAddr
    · rw [hspan hdev] at ha
      exact busWrite_other hw htop ha hn
    · exact (busWrite_elsewhere hdev hw).1 a

/-- A segment of a command to another address leaves the device (20_memory.md R77). -/
theorem exec_elsewhere {i : Instr} {s t : State} (ha : busAddress i s ≠ s.params.devAddr) (h : exec i s = .next t) :
    sameDevice s t := by
  obtain ⟨c, hc⟩ := exec_ctx h
  have hstep := exec_targetStep hc h
  unfold sameDevice
  generalize t.target = g at hstep
  cases hstep with
  | untouched => exact sameDevice.refl s
  | afterRead hr => exact busRead_elsewhere ha hr
  | afterWrite hw => exact busWrite_elsewhere ha hw

end Sys2Proof.Machine
end

section
/-! SUPPORT. The obligations of 20_memory.md, with what they need of the reference target's registers. -/

namespace Sys2Proof.Machine

/-! Bursts of the reference target. -/

/-- Byte `k` of a burst that does not wrap is at register `r + k` (20_memory.md R77). -/
theorem register_toNat {r : BitVec 8} {k : Nat} (h : r.toNat + k < 256) : (r + BitVec.ofNat 8 k).toNat = r.toNat + k := by
  rw [BitVec.toNat_add, BitVec.toNat_ofNat]
  omega

theorem Target.storeBurst_powerUps (p : Params) (bytes : List Byte) :
    ∀ (r : BitVec 8) (t : Target), (t.storeBurst p r bytes).powerUps = t.powerUps := by
  induction bytes with
  | nil => intro r t; rfl
  | cons v vs ih =>
    intro r t
    have hone : (t.storeReg p r v).powerUps = t.powerUps := by
      unfold Target.storeReg
      split
      · rfl
      · split <;> rfl
    exact (ih (r + 1) _).trans hone

/-- `Target.storeBurst_resolves` in the bytes that the registers hold: byte `k` of a burst from `r` is at register
`a = r + k`, in `REGS` from 0x80 on, below it in `REGS1` in bank 1 and lost in bank 0 (20_memory.md R63, R76, R77). -/
theorem Target.storeBurst_reg (p : Params) {r : BitVec 8} {bytes : List Byte} (t : Target)
    (htop : r.toNat + bytes.length ≤ 256) {k : Nat} (hk : k < bytes.length) {a : BitVec 8} (ha : a.toNat = r.toNat + k) :
    (0x80 ≤ a.toNat → (t.storeBurst p r bytes).reg a = bytes[k] ∧ (t.storeBurst p r bytes).reg1 a = t.reg1 a)
      ∧ (a.toNat < 0x80 → 0x80 ≤ p.cfg0Reg.toNat → t.inBank1 p = true →
          (t.storeBurst p r bytes).reg1 a = bytes[k] ∧ (t.storeBurst p r bytes).reg a = t.reg a)
      ∧ (a.toNat < 0x80 → 0x80 ≤ p.cfg0Reg.toNat → t.inBank1 p = false →
          (t.storeBurst p r bytes).reg1 a = t.reg1 a ∧ (t.storeBurst p r bytes).reg a = t.reg a) := by
  obtain ⟨h1, h2, h3⟩ := Target.storeBurst_resolves p bytes r t htop k hk
  have hpower := Target.storeBurst_powerUps p bytes r t
  rw [← ha] at h1 h2 h3
  refine ⟨fun h => ?_, fun h hc hb => ?_, fun h hc hb => (h3 h hc hb).reg.symm⟩
  · obtain ⟨hstored, hkept⟩ := h1 h
    simp [Target.reg, Target.reg1, hstored, hkept, hpower]
  · obtain ⟨hstored, hkept⟩ := h2 h hc hb
    simp [Target.reg, Target.reg1, hstored, hkept, hpower]

/-- Reading a burst changes no register. -/
theorem Target.fetchBurst_reg (p : Params) (n : Nat) (r : BitVec 8) (t : Target) (a : BitVec 8) :
    (t.fetchBurst p n r).2.reg a = t.reg a ∧ (t.fetchBurst p n r).2.reg1 a = t.reg1 a :=
  (Target.SameAt.of_regs (Target.fetchBurst_regs p n r t) a.toNat).reg

/-- `Target.fetchBurst_resolves` for a byte that the burst returned. -/
theorem Target.fetchBurst_getElem (p : Params) {n : Nat} {r : BitVec 8} (t : Target) {k : Nat}
    (hk : k < (t.fetchBurst p n r).1.length) {a : BitVec 8} (ha : a = r + BitVec.ofNat 8 k) :
    (0x80 ≤ a.toNat → (t.fetchBurst p n r).1[k] = t.reg a)
      ∧ (a.toNat < 0x80 → t.inBank1 p = true → (t.fetchBurst p n r).1[k] = t.reg1 a) := by
  obtain ⟨h1, h2⟩ := Target.fetchBurst_resolves p n r t k (Target.fetchBurst_length p n r t ▸ hk) a ha
  rw [List.getElem?_eq_getElem hk] at h1 h2
  exact ⟨fun h => Option.some.inj (h1 h), fun h hb => Option.some.inj (h2 h hb)⟩

/-- A burst at 0x80 and above reads back as it was stored (20_memory.md R63, R77). -/
theorem Target.fetchBurst_storeBurst (p : Params) {r : BitVec 8} {bytes : List Byte} (t : Target) (hr : 0x80 ≤ r.toNat)
    (htop : r.toNat + bytes.length ≤ 256) : ((t.storeBurst p r bytes).fetchBurst p bytes.length r).1 = bytes := by
  refine List.ext_getElem (Target.fetchBurst_length _ _ _ _) fun k hread hk => ?_
  have ha : (r + BitVec.ofNat 8 k).toNat = r.toNat + k := register_toNat (by omega)
  exact ((Target.fetchBurst_getElem p _ hread rfl).1 (by omega)).trans
    ((Target.storeBurst_reg p t htop hk ha).1 (by omega)).1

/-! The sensor engine. -/

/-- The registers that the sensor engine may change (20_memory.md R77). -/
def IsEngineReg (p : Params) (r : BitVec 8) : Prop :=
  r = p.statusReg ∨ (p.dataBase.toNat ≤ r.toNat ∧ r.toNat ≤ p.dataBase.toNat + 35)

/-- All that the sensor engine can do: store its byte in one of its registers of the reference target, or nothing. -/
theorem Target.engineStore_cases (p : Params) (r : BitVec 8) (v : Byte) (t : Target) :
    (t.kind = .reference ∧ IsEngineReg p r ∧ t.engineStore p r v = t.setRegs (t.regs.write r.toNat v))
      ∨ (¬(t.kind = .reference ∧ IsEngineReg p r) ∧ t.engineStore p r v = t) := by
  have hreg : (r = p.statusReg ∨ isDataReg p r = true) ↔ IsEngineReg p r := by simp [isDataReg, IsEngineReg]
  unfold Target.engineStore
  rw [← hreg]
  split
  · next h => exact .inl ⟨h.1, h.2, rfl⟩
  · next h => exact .inr ⟨h, rfl⟩

theorem Target.engineStore_other {p : Params} {a : BitVec 8} (ha : ¬IsEngineReg p a) (r : BitVec 8) (v : Byte)
    (t : Target) : t.SameAt a.toNat (t.engineStore p r v) := by
  obtain ⟨-, hr, h⟩ | ⟨-, h⟩ := Target.engineStore_cases p r v t
  · have hne : a.toNat ≠ r.toNat := fun he => ha (BitVec.eq_of_toNat_eq he ▸ hr)
    rw [h]
    exact ⟨rfl, Memory.read_write_other hne v _, rfl⟩
  · rw [h]

theorem Target.engineStore_reg {p : Params} {r : BitVec 8} {t : Target} (hk : t.kind = .reference)
    (hr : IsEngineReg p r) (v : Byte) : (t.engineStore p r v).reg r = v := by
  obtain ⟨-, -, h⟩ | ⟨hn, -⟩ := Target.engineStore_cases p r v t
  · simp [h, Target.reg, Memory.read_write_same]
  · exact absurd ⟨hk, hr⟩ hn

/-! The host's accesses. -/

theorem ifAdmitted_narrow {w : Width} (hw : w ≠ .word) (off : BitVec 8) (s : State) :
    ifAdmitted w off s = .refused .narrowHostAccess := by
  cases w with
  | byte | half => rfl
  | word => exact absurd rfl hw

theorem ifAdmitted_word (off : BitVec 8) (s : State) :
    ifAdmitted .word off s = if off.toNat % 4 = 0 then .next s else .refused .misalignedHostAccess := by
  simp [ifAdmitted, isAligned]

/-- A load or a store is an access of its width at its offset. -/
theorem hostAccess_ifAdmitted {op : HostOp} {w : Width} {off : BitVec 8} {v : Word}
    (h : op = .load w off ∨ op = .store w off v) (s : State) : ∃ t, hostAccess op s = ifAdmitted w off t := by
  obtain rfl | rfl := h
  · exact ⟨_, rfl⟩
  · exact ⟨_, rfl⟩

/-! The obligations. -/

/-- Settles O24. -/
theorem referenceTargetReadsBackWrites : Obligations.ReferenceTargetReadsBackWrites := by
  unfold Obligations.ReferenceTargetReadsBackWrites
  intro s r bytes hkind hscript hr htop
  obtain ⟨hkind', hscript'⟩ := Target.storeBurst_kind s.params bytes r s.target
  refine ⟨_, busWrite_reference r bytes hkind hscript, fun k hk => ?_, ?_⟩
  · have ha : (r + BitVec.ofNat 8 k).toNat = r.toNat + k := register_toNat (by omega)
    exact ((Target.storeBurst_reg s.params s.target htop hk ha).1 (by omega)).1
  · have hread := busRead_reference (s := (countTransaction s).setTarget (s.target.storeBurst s.params r bytes)) r
      bytes.length (hkind'.trans hkind) (hscript'.trans hscript)
    simp only [State.setTarget_params, State.setTarget_target, countTransaction_params,
      Target.fetchBurst_storeBurst s.params s.target hr htop] at hread
    exact ⟨_, hread⟩

/-- Settles O47: a segment makes at most one transaction, and a write covers just the span. -/
theorem segmentsStoreOnlyTheirSpan : Obligations.SegmentsStoreOnlyTheirSpan := by
  unfold Obligations.SegmentsStoreOnlyTheirSpan
  intro i s t c a hc h ha hn
  have hsame := (exec_targetStep hc h).sameAt ha hn
  exact ⟨hsame, fun b hb => Target.SameAt.reg (hb ▸ hsame)⟩

/-- Settles O58. -/
theorem referenceTargetResolvesByBank : Obligations.ReferenceTargetResolvesByBank := by
  unfold Obligations.ReferenceTargetResolvesByBank
  intro s r hkind hscript hcfg
  refine ⟨fun bytes htop => ?_, fun n htop => ?_⟩
  · refine ⟨_, busWrite_reference r bytes hkind hscript, Target.storeBurst_ptr _ _ _ _, fun k hk a ha => ?_⟩
    obtain ⟨h1, h2, h3⟩ := Target.storeBurst_reg s.params s.target htop hk ha
    exact ⟨h1, fun h => h2 h hcfg, fun h => h3 h hcfg⟩
  · refine ⟨_, _, busRead_reference r n hkind hscript, Target.fetchBurst_length _ _ _ _, Target.fetchBurst_ptr _ _ _ _,
      Target.fetchBurst_reg _ _ _ _, fun k hk a ha => ?_⟩
    refine Target.fetchBurst_getElem s.params s.target hk (BitVec.eq_of_toNat_eq ?_)
    rw [ha, register_toNat (by rw [Target.fetchBurst_length] at hk; omega)]

/-- Settles O59. -/
theorem otherAddressesLeaveDevice : Obligations.OtherAddressesLeaveDevice := by
  unfold Obligations.OtherAddressesLeaveDevice
  intro a r s ha
  refine ⟨fun bytes o s' => busWrite_elsewhere ha, fun n x s' => busRead_elsewhere ha, fun n t h => ?_⟩
  obtain h | h := h
  · exact exec_elsewhere (i := .write a r n) ha h
  · exact exec_elsewhere (i := .read a r n) ha h

/-- Settles O16. -/
theorem hostAccessAdmission : Obligations.HostAccessAdmission := by
  unfold Obligations.HostAccessAdmission
  intro s w off v op hop
  obtain ⟨t, h⟩ := hostAccess_ifAdmitted hop s
  rw [h]
  refine ⟨?_, fun hw => ifAdmitted_narrow hw off t, ?_⟩
  · rintro ⟨rfl, hoff⟩
    exact ⟨t, by rw [ifAdmitted_word, if_pos hoff]⟩
  · rintro rfl hoff
    rw [ifAdmitted_word, if_neg hoff]

/-- Settles O25. -/
theorem sensorEngineRegisters : Obligations.SensorEngineRegisters := by
  unfold Obligations.SensorEngineRegisters
  intro p t r v a
  refine ⟨fun hstatus hdata => ?_, ?_, fun hk hr => Target.engineStore_reg hk hr v⟩
  · exact (Target.engineStore_other (fun h => h.elim hstatus hdata) r v t).reg.1
  · rw [Target.engineStore_eq_setRegs, Target.setRegs_regs1]

end Sys2Proof.Machine
end

section
/-! SUPPORT. The encoder and the decoder (30_encoding.md R100, R102, R103): the fields of a word of format `C`, a word put
together again from its fields, and all that the decoder can answer. -/

namespace Sys2Proof

open Sys2Proof.Machine

/-! The fields of a word of format `C`. -/

@[simp] theorem opField_formatC (n : BitVec 6) (r : BitVec 8) (a : BitVec 7) (op : BitVec 8) :
    opField (formatC n r a op) = op := by
  refine BitVec.eq_of_getLsbD_eq fun k hk => ?_
  simp [opField, formatC_bit, hk]

@[simp] theorem taddrField_formatC (n : BitVec 6) (r : BitVec 8) (a : BitVec 7) (op : BitVec 8) :
    taddrField (formatC n r a op) = a := by
  refine BitVec.eq_of_getLsbD_eq fun k hk => ?_
  simp [taddrField, formatC_bit, hk, show 8 + k < 15 by omega]

@[simp] theorem regField_formatC (n : BitVec 6) (r : BitVec 8) (a : BitVec 7) (op : BitVec 8) :
    regField (formatC n r a op) = r := by
  refine BitVec.eq_of_getLsbD_eq fun k hk => ?_
  simp [regField, formatC_bit, hk, show ¬16 + k < 8 by omega, show ¬16 + k < 15 by omega, show 16 + k < 24 by omega]

@[simp] theorem lenField_formatC (n : BitVec 6) (r : BitVec 8) (a : BitVec 7) (op : BitVec 8) :
    lenField (formatC n r a op) = n := by
  refine BitVec.eq_of_getLsbD_eq fun k hk => ?_
  simp [lenField, formatC_bit, hk, show ¬24 + k < 8 by omega, show ¬24 + k < 15 by omega, show ¬24 + k < 16 by omega]

/-! The reserved bits (30_encoding.md R103). -/

theorem burstReservedClear_iff {w : Word} :
    burstReservedClear w = true ↔ w.getLsbD 31 = false ∧ w.getLsbD 30 = false ∧ w.getLsbD 15 = false := by
  have htop : w.extractLsb' 30 2 = 0#2 ↔ w.getLsbD 31 = false ∧ w.getLsbD 30 = false := by
    constructor
    · intro h
      exact ⟨by simpa using congrArg (·.getLsbD 1) h, by simpa using congrArg (·.getLsbD 0) h⟩
    · rintro ⟨h31, h30⟩
      refine BitVec.eq_of_getLsbD_eq fun k hk => ?_
      obtain rfl | rfl : k = 0 ∨ k = 1 := by omega
      · simpa using h30
      · simpa using h31
  have hmid : w.extractLsb' 15 1 = 0#1 ↔ w.getLsbD 15 = false := by
    constructor
    · intro h
      simpa using congrArg (·.getLsbD 0) h
    · intro h15
      refine BitVec.eq_of_getLsbD_eq fun k hk => ?_
      obtain rfl : k = 0 := by omega
      simpa using h15
  simp [burstReservedClear, htop, hmid, and_assoc]

theorem bareReservedClear_iff {w : Word} : bareReservedClear w = true ↔ w.toNat / 256 = 0 := by
  have hw := w.isLt
  rw [bareReservedClear, decide_eq_true_iff, ← BitVec.toNat_inj, BitVec.extractLsb'_toNat, Nat.shiftRight_eq_div_pow]
  simp only [BitVec.toNat_ofNat]
  omega

theorem opField_toNat (w : Word) : (opField w).toNat = w.toNat % 256 := by
  simp [opField]

/-! A word put together again from its fields. -/

/-- A word of `WRITE` or `READ` is its four fields where the reserved bits are clear (30_encoding.md R100). -/
theorem formatC_of_fields {w : Word} (h : burstReservedClear w = true) :
    formatC (lenField w) (regField w) (taddrField w) (opField w) = w := by
  obtain ⟨h31, h30, h15⟩ := burstReservedClear_iff.mp h
  refine BitVec.eq_of_getLsbD_eq fun k hk => ?_
  rw [formatC_bit]
  split
  · next hop => simp [opField, hop]
  split
  · next h8 ha => simp [taddrField, show k - 8 < 7 by omega, show 8 + (k - 8) = k by omega]
  split
  · obtain rfl : k = 15 := by omega
    exact h15.symm
  split
  · next hr => simp [regField, show k - 16 < 8 by omega, show 16 + (k - 16) = k by omega]
  by_cases hn : k < 30
  · simp [lenField, show k - 24 < 6 by omega, show 24 + (k - 24) = k by omega]
  · obtain rfl | rfl : k = 30 ∨ k = 31 := by omega
    · exact (BitVec.getLsbD_of_ge _ _ (by decide)).trans h30.symm
    · exact (BitVec.getLsbD_of_ge _ _ (by decide)).trans h31.symm

/-- A word of any other opcode is its `OP` field where the reserved bits are clear (30_encoding.md R100). -/
theorem formatC_of_opField {w : Word} (h : bareReservedClear w = true) : formatC 0 0 0 (opField w) = w := by
  have hw : w.toNat < 2 ^ 8 := by have := bareReservedClear_iff.mp h; omega
  refine BitVec.eq_of_getLsbD_eq fun k hk => ?_
  rw [formatC_bit]
  by_cases hop : k < 8
  · simp [opField, hop]
  · have hclear : w.getLsbD k = false :=
      Nat.testBit_lt_two_pow (hw.trans_le (Nat.pow_le_pow_right (by decide) (by omega)))
    simp [hop, hclear]

/-- The encoder leaves the reserved bits of `WRITE` and `READ` clear. -/
theorem burstReservedClear_formatC (n : BitVec 6) (r : BitVec 8) (a : BitVec 7) (op : BitVec 8) :
    burstReservedClear (formatC n r a op) = true := by
  rw [burstReservedClear_iff, formatC_bit, formatC_bit, formatC_bit]
  exact ⟨BitVec.getLsbD_of_ge _ _ (by decide), BitVec.getLsbD_of_ge _ _ (by decide), rfl⟩

/-- The encoder leaves the reserved bits of every other opcode clear. -/
theorem bareReservedClear_formatC (op : BitVec 8) : bareReservedClear (formatC 0 0 0 op) = true := by
  rw [bareReservedClear, decide_eq_true_iff]
  refine BitVec.eq_of_getLsbD_eq fun k hk => ?_
  simp [formatC_bit]

/-! The decoder. -/

theorem decodeBurst_formatC (n : BitVec 6) (r : BitVec 8) (a : BitVec 7) (op : BitVec 8)
    (make : BitVec 7 → BitVec 8 → BitVec 6 → Instr) : decodeBurst (formatC n r a op) make = .ok (make a r n) := by
  simp [decodeBurst, burstReservedClear_formatC]

theorem decodeBare_formatC (op : BitVec 8) (i : Instr) : decodeBare (formatC 0 0 0 op) i = .ok i := by
  rw [decodeBare, if_pos (bareReservedClear_formatC op)]

theorem decode_encode (i : Instr) : decode (encode i) = .ok i := by
  cases i with
  | write a r n | read a r n =>
    unfold encode decode
    rw [opField_formatC]
    exact decodeBurst_formatC n r a _ _
  | _ =>
    unfold encode decode
    rw [opField_formatC]
    exact decodeBare_formatC _ _

/-- A command without operand fields is its opcode and nothing else (30_encoding.md R100). -/
theorem encode_of_opcode {i : Instr} (h : 3 ≤ i.opcode.toNat) : encode i = formatC 0 0 0 i.opcode := by
  cases i with
  | write | read => exact absurd h (by simp [Instr.opcode])
  | _ => rfl

theorem opcode_le (i : Instr) : i.opcode.toNat ≤ 0x0B := by cases i <;> simp [Instr.opcode]

/-- All that the decoder can do with a word: no command has its opcode, or a command with operand fields has it, or one without
(30_encoding.md R102, R103). -/
theorem decode_cases (w : Word) :
    (((opField w).toNat = 0 ∨ 0x0C ≤ (opField w).toNat) ∧ decode w = .error .illegalOpcode)
      ∨ (((opField w).toNat = 1 ∨ (opField w).toNat = 2) ∧ ∃ make,
          (∀ a r n, encode (make a r n) = formatC n r a (opField w)) ∧ decode w = decodeBurst w make)
      ∨ ∃ i : Instr, opField w = i.opcode ∧ 3 ≤ i.opcode.toNat ∧ decode w = decodeBare w i := by
  have hop {x : BitVec 8} (h : (opField w).toNat = x.toNat) : opField w = x := BitVec.eq_of_toNat_eq h
  unfold decode
  split
  case h_1 h =>
    refine .inr (.inl ⟨.inl h, .write, fun a r n => ?_, rfl⟩)
    rw [hop (x := 1#8) h]; rfl
  case h_2 h =>
    refine .inr (.inl ⟨.inr h, .read, fun a r n => ?_, rfl⟩)
    rw [hop (x := 2#8) h]; rfl
  case h_12 =>
    refine .inl ⟨?_, rfl⟩
    simp only [imp_false] at *
    omega
  all_goals
    next h =>
    refine .inr (.inr ⟨_, ?_, ?_, rfl⟩)
    · exact hop h
    · decide

/-- What the opcode table reads from a word is what the decoder does (30_encoding.md R109). -/
theorem decode_of_decodeTableWord {nbits w : Nat} {i : Instr} (h : decodeTableWord nbits w = some i) :
    decode (tableWord nbits w) = .ok i := by
  unfold decodeTableWord at h
  split at h
  · next hi => cases h; exact hi
  · cases h

/-- A legal word is the word of the command it decodes to: its fields are all there is to it (30_encoding.md R100). -/
theorem encode_of_decode {w : Word} {i : Instr} (h : decode w = .ok i) : encode i = w := by
  obtain ⟨-, hd⟩ | ⟨-, make, hmake, hd⟩ | ⟨j, hop, hj, hd⟩ := decode_cases w
  · rw [hd] at h; cases h
  · rw [hd, decodeBurst] at h
    split at h
    · next hclear => cases h; rw [hmake, formatC_of_fields hclear]
    · cases h
  · rw [hd, decodeBare] at h
    split at h
    · next hclear => cases h; rw [encode_of_opcode hj, ← hop, formatC_of_opField hclear]
    · cases h

/-- The decoder refuses just the words that 30_encoding.md R103 calls illegal. -/
theorem decode_error_iff (w : Word) : (∃ e, decode w = .error e) ↔ IllegalWord w := by
  have hburst : burstReservedClear w = false
      ↔ w.getLsbD 31 = true ∨ w.getLsbD 30 = true ∨ w.getLsbD 15 = true := by
    rw [← Bool.not_eq_true, burstReservedClear_iff]
    simp only [not_and_or, Bool.not_eq_false]
  have hbare : bareReservedClear w = false ↔ w.toNat / 256 ≠ 0 := by
    rw [← Bool.not_eq_true, bareReservedClear_iff]
  unfold IllegalWord
  dsimp only
  rw [← hburst, ← hbare, ← opField_toNat]
  obtain ⟨hop, hd⟩ | ⟨hop, make, -, hd⟩ | ⟨i, hi, hop, hd⟩ := decode_cases w
  · exact iff_of_true ⟨_, hd⟩ (by omega)
  · rw [hd, decodeBurst]
    cases burstReservedClear w with
    | true => exact iff_of_false (by simp) (by simp; omega)
    | false => exact iff_of_true ⟨_, rfl⟩ (by simp; omega)
  · have hle := opcode_le i
    rw [hd, decodeBare, hi]
    cases bareReservedClear w with
    | true => exact iff_of_false (by simp) (by simp; omega)
    | false => exact iff_of_true ⟨_, rfl⟩ (by simp; omega)

end Sys2Proof
end

section
/-! SUPPORT. How a command goes on (30_encoding.md R107, R108): every position answers a next state, a segment ends at a position
of the command or with its completion, and only a completion or a reset ends a command. -/

namespace Sys2Proof.Machine

/-! Completion, as it shows in the next state. -/

/-- Every code of 3 bits is one of 60_exceptions.md R220. -/
theorem ErrCode.exists_code {e : BitVec 4} (h : e.toNat ≤ 7) : ∃ code : ErrCode, code.code = e := by
  have hcases : e = 0 ∨ e = 1 ∨ e = 2 ∨ e = 3 ∨ e = 4 ∨ e = 5 ∨ e = 6 ∨ e = 7 := by revert e; decide
  obtain rfl | rfl | rfl | rfl | rfl | rfl | rfl | rfl := hcases
  exacts [⟨.none, rfl⟩, ⟨.nack, rfl⟩, ⟨.short, rfl⟩, ⟨.timeout, rfl⟩, ⟨.illegal, rfl⟩, ⟨.badarg, rfl⟩, ⟨.bank, rfl⟩,
    ⟨.idMismatch, rfl⟩]

theorem completes_fail {s t : State} (h : t.cmd = s.cmd) (code : ErrCode) : Completes false code s (fail code t) :=
  ⟨rfl, rfl, rfl, rfl, rfl, h⟩

theorem completes_succeed {s t : State} (h : t.cmd = s.cmd) : Completes true .none s (succeed t) :=
  ⟨rfl, rfl, rfl, rfl, rfl, h⟩

/-- An ending is a position of the command or a completion (60_exceptions.md R223). -/
theorem Ends.goesOn_or_completes {i : Instr} {c : Ctx} {s t : State} (h : Ends i c s t) (he : c.e ∈ identityCodes) :
    (t.status.busy = s.status.busy ∧ ∃ c', t.ctx = some c' ∧ c'.seg ∈ segments i) ∨ ∃ ok code, Completes ok code s t := by
  cases h with
  | resumed hseg _ => exact .inl ⟨rfl, _, rfl, hseg⟩
  | completed _ hcode =>
    obtain ⟨code, rfl⟩ := ErrCode.exists_code (hcode he)
    exact .inr ⟨_, code, rfl, rfl, rfl, rfl, rfl, rfl⟩
  | validated | sorted => exact .inr ⟨_, _, completes_succeed rfl⟩

/-- A segment leaves its command in progress at one of its positions, or completes it. -/
theorem SegmentStep.goesOn_or_completes {i : Instr} {c : Ctx} {s t : State} (h : SegmentStep i c s t) (hs : s.Inv)
    (hc : s.ctx = some c) (hseg : c.seg ∈ segments i) (hcmd : t.cmd = s.cmd) :
    (t.status.busy = true ∧ ∃ c', t.ctx = some c' ∧ c'.seg ∈ segments i) ∨ ∃ ok code, Completes ok code s t := by
  obtain ⟨hctx, -⟩ := hs
  obtain ⟨hbusy, -, -, he⟩ := (contextSound_busy hc).mp hctx
  cases h with
  | unanswered => exact .inl ⟨hbusy, c, hc, hseg⟩
  | @answered s₁ s₂ _ hcall hstore hend =>
    obtain ⟨hb, hgo⟩ | ⟨ok, code, h1, h2, h3, h4, h5, -⟩ := hend.goesOn_or_completes he
    · obtain ⟨hb', -⟩ := hstore.progress
      exact .inl ⟨by rw [hb, hb', hcall.status, hbusy], hgo⟩
    · exact .inr ⟨ok, code, h1, h2, h3, h4, h5, hcmd⟩

/-! Every position answers. -/

/-- The segment answers a next state: it neither faults nor is refused. -/
def Answers (o : Out) : Prop := ∃ t, o = .next t

theorem answers_next (t : State) : Answers (.next t) := ⟨t, rfl⟩

theorem answers_ite {p : Prop} [Decidable p] {o o' : Out} (h : Answers o) (h' : Answers o') :
    Answers (if p then o else o') := by
  split
  · exact h
  · exact h'

theorem inCommand_answers {s : State} {c : Ctx} {k : Ctx → Out} (hc : s.ctx = some c) (hk : Answers (k c)) :
    Answers (inCommand s k) := by
  rw [inCommand_some hc]; exact hk

section Commands

variable {s : State} {c : Ctx}

/-- `READ_ALL` and `GET_SORTED` answer at the same positions. -/
theorem acquire_answers {finish : State → State} (hc : s.ctx = some c) (hseg : c.seg ∈ segments .readAll) :
    Answers (acquire finish s) := by
  refine inCommand_answers hc ?_
  cases hg : c.seg with
  | start | bankWrite | waitStart | waitCheck | poll | channel => exact answers_next _
  | _ => rw [hg] at hseg; exact absurd hseg (by decide)

/-- Each command answers at every position it has: there each branch of its segment is a primitive call or an ending. -/
theorem exec_answers (i : Instr) (hc : s.ctx = some c) (hseg : c.seg ∈ segments i) : Answers (exec i s) := by
  cases i with
  | write a r n | read a r n =>
    refine inCommand_answers hc ?_
    rw [List.mem_singleton.mp hseg]
    exact answers_ite (answers_next _) (answers_next _)
  | setBank =>
    refine inCommand_answers hc ?_
    cases hg : c.seg with
    | start | bankWrite => exact answers_next _
    | _ => rw [hg] at hseg; exact absurd hseg (by decide)
  | isConnected =>
    refine inCommand_answers hc ?_
    cases hg : c.seg with
    | start | bankWrite | idRead | backRead | backWrite => exact answers_next _
    | _ => rw [hg] at hseg; exact absurd hseg (by decide)
  | init =>
    refine inCommand_answers hc ?_
    cases hg : c.seg with
    | idRead | backRead | backWrite | astepLow | astepHigh | waitStart | waitCheck | poll | channel =>
      rw [hg] at hseg; exact absurd hseg (by decide)
    | _ => exact answers_next _
  | setGain =>
    refine inCommand_answers hc ?_
    cases hg : c.seg with
    | start => exact answers_ite (answers_next _) (answers_ite (answers_next _) (answers_next _))
    | gainWrite => exact answers_next _
    | _ => rw [hg] at hseg; exact absurd hseg (by decide)
  | setItime =>
    refine inCommand_answers hc ?_
    cases hg : c.seg with
    | start => exact answers_ite (answers_next _) (answers_next _)
    | astepLow | astepHigh => exact answers_next _
    | _ => rw [hg] at hseg; exact absurd hseg (by decide)
  | setTimeout =>
    refine inCommand_answers hc ?_
    rw [List.mem_singleton.mp hseg]
    exact answers_next _
  | waitDataReady =>
    refine inCommand_answers hc ?_
    cases hg : c.seg with
    | start | waitCheck | poll => exact answers_next _
    | _ => rw [hg] at hseg; exact absurd hseg (by decide)
  | readAll => exact acquire_answers hc hseg
  | getSorted => exact acquire_answers hc hseg

end Commands

/-! What ends a command. -/

theorem ctrlTurn_idle {s : State} (h : s.status.busy = false) : ctrlTurn s = .next s := by
  simp [ctrlTurn, h]

theorem ctrlTurn_legal {s : State} {i : Instr} (hb : s.status.busy = true) (hi : decode s.cmd = .ok i) :
    ctrlTurn s = exec i s := by
  simp [ctrlTurn, hb, hi]

theorem ctrlTurn_illegal {s : State} {e : DecodeError} (hb : s.status.busy = true) (hi : decode s.cmd = .error e) :
    ctrlTurn s = .next (runIllegal s) := by
  simp [ctrlTurn, hb, hi]

/-- A turn of `CTRL` that ends a command completes it. -/
theorem ctrlTurn_completes {s t : State} (hs : s.Inv) (hb : s.status.busy = true) (h : ctrlTurn s = .next t)
    (ht : t.status.busy = false) : ∃ ok code, Completes ok code s t := by
  cases hi : decode s.cmd with
  | error e =>
    rw [ctrlTurn_illegal hb hi] at h
    cases h
    exact ⟨false, .illegal, completes_fail rfl .illegal⟩
  | ok i =>
    rw [ctrlTurn_legal hb hi] at h
    obtain ⟨c, hc, hstep⟩ := exec_segmentStep h
    obtain ⟨hcmd, -⟩ := exec_keepsOutside i s t h
    have hfit : c.seg ∈ segments i := by
      obtain ⟨hctx, -⟩ := hs
      obtain ⟨-, hfit, -⟩ := (contextSound_busy hc).mp hctx
      exact (positionFits_legal hi c).mp hfit
    obtain ⟨hbusy, -⟩ | hdone := hstep.goesOn_or_completes hs hc hfit hcmd
    · rw [ht] at hbusy; cases hbusy
    · exact hdone

theorem csrWrite_stays_busy {s : State} (hb : s.status.busy = true) (off : BitVec 8) (v : Word) :
    (csrWrite off v s).status.busy = true := by
  obtain h | ⟨-, h⟩ | ⟨hidle, -⟩ := csrWrite_cases off v s
  · rw [h]; exact hb
  · rw [h]; exact hb
  · rw [hb] at hidle; cases hidle

/-- A host access that ends a command is a reset (10_state.md R41, 70_reset_and_hazards.md R260). -/
theorem hostAccess_ends {s t : State} {op : HostOp} (hb : s.status.busy = true) (h : hostAccess op s = .next t)
    (ht : t.status.busy = false) : ∃ cut, op = .reset cut ∧ t.status = Status.reset := by
  have hstays (hbusy : t.status.busy = true) : False := by rw [ht] at hbusy; cases hbusy
  cases op with
  | load w off =>
    obtain ⟨-, -, rfl⟩ := ifAdmitted_next h
    exact (hstays hb).elim
  | store w off v =>
    obtain ⟨-, -, rfl⟩ := ifAdmitted_next h
    exact (hstays (csrWrite_stays_busy hb off v)).elim
  | waitIdle =>
    cases h
    rw [hb] at hstays
    exact (hstays hb).elim
  | reset cut =>
    cases h
    refine ⟨cut, rfl, ?_⟩
    rw [hostReset_eq]
    rfl

theorem hostTurn_ends {s t : State} (hb : s.status.busy = true) (h : hostTurn s = .next t) (ht : t.status.busy = false) :
    ∃ cut ops, s.host.prog = .reset cut :: ops ∧ t.status = Status.reset := by
  unfold hostTurn at h
  split at h
  · cases h; rw [hb] at ht; cases ht
  · next op ops hp =>
    obtain ⟨cut, rfl, hreset⟩ := hostAccess_ends hb h ht
    exact ⟨cut, ops, hp, hreset⟩

/-- What ends a command, by the agent that moves: a completion at a turn of `CTRL`, or a reset at a turn of `HOST`. -/
theorem step_ends {s t : State} (hs : s.Inv) (hb : s.status.busy = true) (h : step s = .next t) (ht : t.status.busy = false) :
    (∃ ok code, Completes ok code s t)
      ∨ ∃ rest cut ops, s.agenda = .host :: rest ∧ s.host.prog = .reset cut :: ops ∧ t.status = Status.reset := by
  have hstays {u : State} (hu : Host.Outcome.next u = (.next t : Out)) (hbusy : u.status.busy = true) : False := by
    cases hu; rw [ht] at hbusy; cases hbusy
  cases ha : s.agenda with
  | nil =>
    simp only [step, ha] at h
    obtain ⟨-, h'⟩ | ⟨-, h'⟩ := openTurn_cases s
    · exact .inl (ctrlTurn_completes (s := s.setSpent (s.spent + 1)) hs hb (h' ▸ h) ht)
    · rw [h'] at h
      exact (hstays h ((congrArg Status.busy (countOpen_status s)).trans hb)).elim
  | cons e rest =>
    rw [step_of_agenda ha] at h
    cases e with
    | host =>
      obtain ⟨cut, ops, hp, hreset⟩ := hostTurn_ends (s := s.setAgenda rest) hb h ht
      exact .inr ⟨rest, cut, ops, rfl, hp, hreset⟩
    | ctrl => exact .inl (ctrlTurn_completes (s := s.setAgenda rest) hs hb h ht)
    | clock | engine | powerCycle => exact (hstays h hb).elim

end Sys2Proof.Machine
end

section
/-! SUPPORT. The argument checks (30_encoding.md R105, R106) and the read-modify-write (40_bus_adapter.md R133, R134): what the first
segment of a command can fail with, and the two transactions of `SET_GAIN`. -/

namespace Sys2Proof.Machine

/-! The read-modify-write, position by position. -/

/-- A read without failure returned all the bytes asked for (40_bus_adapter.md R131). -/
theorem busRead_length {a : BitVec 7} {r : BitVec 8} {n : Nat} {s s' : State} {bytes : List Byte}
    (h : busRead a r n s = some ((.none, bytes), s')) : bytes.length = n := by
  obtain ⟨o, bs, t, -, ⟨-, rfl, hcode, -⟩ | ⟨-, -, hcode, -⟩⟩ := busRead_spec h
  · split at hcode
    · next hlen => exact hlen
    · cases hcode
  · cases hcode

theorem rd_answered {r : BitVec 8} {n : Nat} {s s' : State} {bytes : List Byte} {k : List Byte → State → State}
    (h : busRead s.params.devAddr r n s = some ((.none, bytes), s')) : rd r n s k = .next (k bytes s') :=
  onRead_answered h

theorem rd_failed {r : BitVec 8} {n : Nat} {s s' : State} {code : ErrCode} {bytes : List Byte}
    {k : List Byte → State → State} (h : busRead s.params.devAddr r n s = some ((code, bytes), s')) (hcode : code ≠ .none) :
    rd r n s k = .next (fail code s') :=
  (onRead_answered h).trans (congrArg _ (if_neg hcode))

theorem wr_acked {r : BitVec 8} {bytes : List Byte} {s s' : State} {k : State → State}
    (h : busWrite s.params.devAddr r bytes s = some (.ack, s')) : wr r bytes s k = .next (k s') :=
  onWrite_answered h

theorem wr_failed {r : BitVec 8} {bytes : List Byte} {s s' : State} {o : WriteOutcome} {k : State → State}
    (h : busWrite s.params.devAddr r bytes s = some (o, s')) (ho : o ≠ .ack) : wr r bytes s k = .next (fail .nack s') :=
  (onWrite_answered h).trans (congrArg _ (if_neg ho))

/-- A segment that is the first half of a read-modify-write (40_bus_adapter.md R134). -/
theorem readsByteThen_of_rmwRead {i : Instr} {r : BitVec 8} {seg : Seg} {c : Ctx} {s : State}
    (h : exec i s = rmwRead r seg c s) : ReadsByteThen i r seg s := by
  intro code bytes s' hread
  obtain ⟨hstatus, -, -, hcmd, -⟩ := busRead_same hread
  have hbank : s'.status.bank = s.status.bank := congrArg Status.bank hstatus
  by_cases hcode : code = .none
  · subst hcode
    obtain ⟨v, rfl⟩ := List.length_eq_one_iff.mp (busRead_length hread)
    exact ⟨_, h.trans (rd_answered hread), ⟨rfl, rfl⟩, fun _ => ⟨⟨hstatus, _, rfl, rfl⟩, _, rfl, rfl⟩, fun h => absurd rfl h⟩
  · exact ⟨_, h.trans (rd_failed hread hcode), ⟨rfl, rfl⟩, fun h => absurd h hcode,
      fun _ => ⟨completes_fail hcmd code, hbank⟩⟩

/-- A segment that is a one-byte write, with an ending that leaves the target, the counters and the mirror
(40_bus_adapter.md R133). -/
theorem writesByteThen_of_wr {i : Instr} {r : BitVec 8} {v : Byte} {s : State} {after : State → Prop} {k : State → State}
    (h : exec i s = wr r [v] s k) (hk : ∀ s', AfterTransaction s' (k s') ∧ (k s').status.bank = s'.status.bank)
    (hafter : ∀ s', s'.status = s.status → s'.cmd = s.cmd → after (k s')) : WritesByteThen i r v s after := by
  intro o s' hwrite
  obtain ⟨hstatus, -, -, ⟨hcmd, -⟩, -⟩ := busWrite_same hwrite
  have hbank : s'.status.bank = s.status.bank := congrArg Status.bank hstatus
  by_cases ho : o = .ack
  · subst ho
    obtain ⟨htx, hkept⟩ := hk s'
    exact ⟨_, h.trans (wr_acked hwrite), htx, fun _ => ⟨hafter s' hstatus hcmd, hkept.trans hbank⟩, fun h => absurd rfl h⟩
  · exact ⟨_, h.trans (wr_failed hwrite ho), ⟨rfl, rfl⟩, fun h => absurd h ho, fun _ => ⟨completes_fail hcmd .nack, hbank⟩⟩

/-! The checks of the first segment. -/

section Checks

variable {s : State} {c : Ctx}

theorem execWrite_start (a : BitVec 7) (r : BitVec 8) (n : BitVec 6) (hc : s.ctx = some c) (hseg : c.seg = .start) :
    exec (.write a r n) s = if burstOk r n then
        onWrite a r (bufPrefix s.buf n.toNat) s fun o s' =>
          if o = .ack then succeed (snoop a r n o s') else fail .nack (snoop a r n o s')
      else .next (fail .badarg s) := by
  simp only [exec, execWrite, inCommand_some hc, hseg]

theorem execRead_start (a : BitVec 7) (r : BitVec 8) (n : BitVec 6) (hc : s.ctx = some c) (hseg : c.seg = .start) :
    exec (.read a r n) s = if burstOk r n then
        onRead a r n.toNat s fun code bytes s' =>
          if code = .none then succeed (s'.setBuf (bufFill s'.buf bytes)) else fail code (s'.setBuf (bufFill s'.buf bytes))
      else .next (fail .badarg s) := by
  simp only [exec, execRead, inCommand_some hc, hseg]

theorem execSetGain_start (hc : s.ctx = some c) (hseg : c.seg = .start) :
    exec .setGain s = if maxGainCode < (argGain s.arg).toNat then .next (fail .badarg s)
      else if s.status.bank ≠ bankMirror 0 then .next (fail .bank s)
      else rmwRead s.params.gainReg .gainWrite c s := by
  simp only [exec, execSetGain, inCommand_some hc, hseg]

theorem execSetGain_gainWrite (hc : s.ctx = some c) (hseg : c.seg = .gainWrite) :
    exec .setGain s = wr s.params.gainReg [rmwByte c.v gainMask ((argGain s.arg).zeroExtend 8)] s succeed := by
  simp only [exec, execSetGain, inCommand_some hc, hseg, rmwWrite]

/-- The bursts that `burstOk` turns down are those of 30_encoding.md R105. -/
theorem burstOk_eq_false_iff {r : BitVec 8} {n : BitVec 6} :
    burstOk r n = false ↔ n.toNat = 0 ∨ 32 < n.toNat ∨ 0xFF < r.toNat + n.toNat - 1 := by
  rw [← Bool.not_eq_true, burstOk_iff]
  omega

/-- A gain code out of range is refused before anything else (30_encoding.md R106). -/
theorem execSetGain_badarg (hc : s.ctx = some c) (hseg : c.seg = .start) (hg : maxGainCode < (argGain s.arg).toNat) :
    exec .setGain s = .next (fail .badarg s) := by
  rw [execSetGain_start hc hseg, if_pos hg]

end Checks

/-! The first segment raises `BADARG` for no other reason. -/

/-- `STATUS.ERR` does not hold `BADARG`. -/
def NoBadarg (s : State) : Prop := s.status.err ≠ ErrCode.badarg.code

/-- A segment from `s` that does not raise `BADARG`, if it answers next. -/
def RaisesNoBadarg (s : State) (o : Out) : Prop := NoBadarg s → ∀ t, o = .next t → NoBadarg t

/-- The rest of a segment does not raise `BADARG`. -/
def KeepsNoBadarg (k : State → State) : Prop := ∀ s, NoBadarg s → NoBadarg (k s)

theorem ErrCode.code_ne_badarg {code : ErrCode} (h : code ≠ .badarg) : code.code ≠ ErrCode.badarg.code := by
  cases code with
  | badarg => exact absurd rfl h
  | _ => decide

theorem keepsNoBadarg_fail {code : ErrCode} (h : code ≠ .badarg) : KeepsNoBadarg (fail code) :=
  fun _ _ => ErrCode.code_ne_badarg h

theorem keepsNoBadarg_succeed : KeepsNoBadarg succeed := fun _ _ => ErrCode.code_ne_badarg (code := .none) nofun

theorem keepsNoBadarg_of_err {k : State → State} (hk : ∀ s, (k s).status.err = s.status.err) : KeepsNoBadarg k := by
  intro s h
  rwa [NoBadarg, hk]

theorem keepsNoBadarg_resume (c : Ctx) : KeepsNoBadarg (resume c) := keepsNoBadarg_of_err fun _ => rfl

theorem keepsNoBadarg_snoop (a : BitVec 7) (r : BitVec 8) (n : BitVec 6) (o : WriteOutcome) : KeepsNoBadarg (snoop a r n o) :=
  keepsNoBadarg_of_err fun s => by rw [snoop_mirror]; rfl

theorem KeepsNoBadarg.comp {f g : State → State} (hf : KeepsNoBadarg f) (hg : KeepsNoBadarg g) :
    KeepsNoBadarg fun s => g (f s) := fun s h => hg _ (hf s h)

theorem keepsNoBadarg_ite {p : Prop} [Decidable p] {f g : State → State} (hf : KeepsNoBadarg f) (hg : KeepsNoBadarg g) :
    KeepsNoBadarg fun s => if p then f s else g s := by
  intro s h
  dsimp only
  split
  · exact hf s h
  · exact hg s h

section FirstSegment

variable {s : State} {c : Ctx}

theorem raisesNoBadarg_next {k : State → State} (hk : KeepsNoBadarg k) : RaisesNoBadarg s (.next (k s)) := by
  intro h t ht
  cases ht
  exact hk s h

theorem onWrite_raisesNoBadarg {a : BitVec 7} {r : BitVec 8} {bytes : List Byte} {k : WriteOutcome → State → State}
    (hk : ∀ o, KeepsNoBadarg (k o)) : RaisesNoBadarg s (onWrite a r bytes s k) := by
  intro h t ht
  refine onWrite_elim ht h fun o s' hwrite => hk o s' ?_
  obtain ⟨hstatus, -⟩ := busWrite_same hwrite
  rwa [NoBadarg, hstatus]

/-- The code of a read is none that a check raises (40_bus_adapter.md R131). -/
theorem onRead_raisesNoBadarg {a : BitVec 7} {r : BitVec 8} {n : Nat} {k : ErrCode → List Byte → State → State}
    (hk : ∀ code bytes, code ≠ .badarg → KeepsNoBadarg (k code bytes)) : RaisesNoBadarg s (onRead a r n s k) := by
  intro h t ht
  refine onRead_elim ht h fun code bytes s' hread => hk code bytes ?_ s' ?_
  · obtain rfl | rfl | rfl := busRead_code hread <;> decide
  · obtain ⟨hstatus, -⟩ := busRead_same hread
    rwa [NoBadarg, hstatus]

theorem wr_raisesNoBadarg {r : BitVec 8} {bytes : List Byte} {k : State → State} (hk : KeepsNoBadarg k) :
    RaisesNoBadarg s (wr r bytes s k) :=
  onWrite_raisesNoBadarg fun _ => keepsNoBadarg_ite hk (keepsNoBadarg_fail nofun)

theorem rd_raisesNoBadarg {r : BitVec 8} {n : Nat} {k : List Byte → State → State} (hk : ∀ bytes, KeepsNoBadarg (k bytes)) :
    RaisesNoBadarg s (rd r n s k) :=
  onRead_raisesNoBadarg fun _ bytes hcode => keepsNoBadarg_ite (hk bytes) (keepsNoBadarg_fail hcode)

theorem rmwRead_raisesNoBadarg (r : BitVec 8) (next : Seg) : RaisesNoBadarg s (rmwRead r next c s) :=
  rd_raisesNoBadarg fun _ => keepsNoBadarg_resume _

theorem inCommand_raisesNoBadarg {k : Ctx → Out} (hc : s.ctx = some c) (hk : RaisesNoBadarg s (k c)) :
    RaisesNoBadarg s (inCommand s k) := by
  rw [inCommand_some hc]; exact hk

theorem acquire_start_raisesNoBadarg {finish : State → State} (hc : s.ctx = some c) (hseg : c.seg = .start) :
    RaisesNoBadarg s (acquire finish s) := by
  have hstart : KeepsNoBadarg startReading := keepsNoBadarg_of_err fun _ => rfl
  refine inCommand_raisesNoBadarg hc ?_
  rw [hseg]
  exact onRead_raisesNoBadarg fun _ _ hcode =>
    keepsNoBadarg_ite (hstart.comp (keepsNoBadarg_resume _)) (hstart.comp (keepsNoBadarg_fail hcode))

/-- The first segment of a command that passes its argument check does not raise `BADARG` (30_encoding.md R105). -/
theorem exec_start_raisesNoBadarg {i : Instr} (hc : s.ctx = some c) (hseg : c.seg = .start) (hwf : i.wellFormed = true)
    (hg : i = .setGain → ¬maxGainCode < (argGain s.arg).toNat) : RaisesNoBadarg s (exec i s) := by
  cases i with
  | write a r n =>
    have hsnoop (o : WriteOutcome) := keepsNoBadarg_snoop a r n o
    rw [execWrite_start a r n hc hseg, if_pos (by exact hwf)]
    exact onWrite_raisesNoBadarg fun o =>
      keepsNoBadarg_ite ((hsnoop o).comp keepsNoBadarg_succeed) ((hsnoop o).comp (keepsNoBadarg_fail nofun))
  | read a r n =>
    have hfill (bytes : List Byte) : KeepsNoBadarg fun s' => s'.setBuf (bufFill s'.buf bytes) :=
      keepsNoBadarg_of_err fun _ => rfl
    rw [execRead_start a r n hc hseg, if_pos (by exact hwf)]
    exact onRead_raisesNoBadarg fun _ bytes hcode =>
      keepsNoBadarg_ite ((hfill bytes).comp keepsNoBadarg_succeed) ((hfill bytes).comp (keepsNoBadarg_fail hcode))
  | setBank | init =>
    refine inCommand_raisesNoBadarg hc ?_
    rw [hseg]
    exact rmwRead_raisesNoBadarg s.params.cfg0Reg .bankWrite
  | isConnected =>
    refine inCommand_raisesNoBadarg hc ?_
    rw [hseg]
    exact onRead_raisesNoBadarg fun _ _ _ => keepsNoBadarg_ite (keepsNoBadarg_resume _) (keepsNoBadarg_resume _)
  | setGain =>
    rw [execSetGain_start hc hseg, if_neg (hg rfl)]
    split
    · exact raisesNoBadarg_next (keepsNoBadarg_fail nofun)
    · exact rmwRead_raisesNoBadarg s.params.gainReg .gainWrite
  | setItime =>
    refine inCommand_raisesNoBadarg hc ?_
    rw [hseg]
    dsimp only
    split
    · exact raisesNoBadarg_next (keepsNoBadarg_fail nofun)
    · exact wr_raisesNoBadarg (keepsNoBadarg_resume _)
  | setTimeout =>
    refine inCommand_raisesNoBadarg hc ?_
    rw [hseg]
    exact raisesNoBadarg_next (k := fun s' => succeed (s'.setTimeout s'.arg)) fun s' => keepsNoBadarg_succeed _
  | waitDataReady =>
    refine inCommand_raisesNoBadarg hc ?_
    rw [hseg]
    exact raisesNoBadarg_next (keepsNoBadarg_resume _)
  | readAll | getSorted => exact acquire_start_raisesNoBadarg hc hseg

end FirstSegment

end Sys2Proof.Machine
end

section
/-! SUPPORT. The obligations of 30_encoding.md. -/

namespace Sys2Proof.Machine

/-! Command words. -/

/-- Settles O1: the decoder reads from a word of format `C` the fields it was made of. -/
theorem decodeOfEncode : Obligations.DecodeOfEncode := by
  unfold Obligations.DecodeOfEncode
  exact decode_encode

/-- Settles O2: where the reserved bits are clear, a word is made of the fields that the decoder reads. -/
theorem encodeOfDecode : Obligations.EncodeOfDecode := by
  unfold Obligations.EncodeOfDecode
  intro w i h
  exact encode_of_decode h

/-- Settles O3. -/
theorem illegalWordsCompleteWithIllegal : Obligations.IllegalWordsCompleteWithIllegal := by
  unfold Obligations.IllegalWordsCompleteWithIllegal
  refine ⟨decode_error_iff, fun s hb hw => ?_⟩
  obtain ⟨e, he⟩ := (decode_error_iff s.cmd).mpr hw
  exact ⟨runIllegal s, ctrlTurn_illegal hb he, ⟨rfl, rfl⟩, completes_fail rfl .illegal, keepsOutside_fail .illegal s,
    ⟨rfl, rfl, rfl, rfl, rfl, rfl⟩, ⟨rfl, rfl⟩, rfl⟩

/-- Settles O4. -/
theorem sampleWordsDecode : Obligations.SampleWordsDecode := by
  unfold Obligations.SampleWordsDecode
  decide

/-! The argument checks. -/

/-- Settles O29: a failed check is the whole segment, and a first segment whose check passes never raises `BADARG`. -/
theorem argumentChecks : Obligations.ArgumentChecks := by
  unfold Obligations.ArgumentChecks
  intro s c hc hseg
  have hfail : Completes false .badarg s (fail .badarg s) := completes_fail rfl .badarg
  have hdata : sameData s (fail .badarg s) := ⟨rfl, rfl, rfl, rfl, rfl, rfl⟩
  refine ⟨fun a r n hn => ?_, fun hg => ?_, fun i t h hs ht => ?_⟩
  · have hbad : ¬burstOk r n = true := by rw [burstOk_eq_false_iff.mpr hn]; nofun
    refine ⟨_, _, ?_, ?_, hfail, hfail, ⟨rfl, rfl⟩, ⟨rfl, rfl⟩, hdata, hdata⟩
    · rw [execWrite_start a r n hc hseg, if_neg hbad]
    · rw [execRead_start a r n hc hseg, if_neg hbad]
  · exact ⟨_, execSetGain_badarg hc hseg hg, hfail, ⟨rfl, rfl⟩, hdata⟩
  · by_contra hpass
    rw [not_or, Bool.not_eq_false, not_and] at hpass
    obtain ⟨hwf, hgain⟩ := hpass
    exact exec_start_raisesNoBadarg hc hseg hwf hgain hs t h ht

/-- Settles O34. -/
theorem setGainChecksThenWritesField : Obligations.SetGainChecksThenWritesField := by
  unfold Obligations.SetGainChecksThenWritesField
  intro s c hc
  have hpass (hg : (argGain s.arg).toNat ≤ 12) : ¬maxGainCode < (argGain s.arg).toNat := Nat.not_lt.mpr hg
  have hzero : bankMirror 0 = 0b00 := by decide
  refine ⟨fun hseg hg => ?_, fun hseg hg hbank => ?_, fun hseg hg hbank => ?_, fun hseg => ?_⟩
  · exact ⟨_, execSetGain_badarg hc hseg hg, completes_fail rfl .badarg, rfl, rfl⟩
  · refine ⟨_, ?_, completes_fail (t := s) rfl .bank, rfl, rfl⟩
    rw [execSetGain_start hc hseg, if_neg (hpass hg), hzero, if_pos hbank]
  · refine readsByteThen_of_rmwRead (c := c) ?_
    rw [execSetGain_start hc hseg, if_neg (hpass hg), hzero, if_neg (not_not.mpr hbank)]
  · exact writesByteThen_of_wr (execSetGain_gainWrite hc hseg) (fun s' => ⟨⟨rfl, rfl⟩, rfl⟩)
      fun s' _ hcmd => completes_succeed hcmd

/-! The controller's turns. -/

/-- Settles O5. -/
theorem stepRunsDecodedCommand : Obligations.StepRunsDecodedCommand := by
  unfold Obligations.StepRunsDecodedCommand
  intro s rest i ha hb hi
  exact (step_of_agenda ha).trans (ctrlTurn_legal (s := s.setAgenda rest) hb hi)

/-- Settles O6, by O5 from the state in which the word has been issued. -/
theorem fetchWordRunsNext : Obligations.FetchWordRunsNext := by
  unfold Obligations.FetchWordRunsNext
  intro s nbits w i h
  exact stepRunsDecodedCommand (s.withFetchWord nbits w) s.agenda i rfl rfl (decode_of_decodeTableWord h)

/-- Settles O9. -/
theorem idleControllerHasNoStep : Obligations.IdleControllerHasNoStep := by
  unfold Obligations.IdleControllerHasNoStep
  intro s rest ha hb
  exact (step_of_agenda ha).trans (ctrlTurn_idle (s := s.setAgenda rest) hb)

/-- Settles O10. -/
theorem idleWriteToCmdIssues : Obligations.IdleWriteToCmdIssues := by
  unfold Obligations.IdleWriteToCmdIssues
  intro s rest ops w ha hp hb
  have hstep : step s = .next (advanceHost (issue w (s.setAgenda rest))) := by
    rw [step_host ha hp, hostAccess_store (by decide), show (0x00 : BitVec 8) = Csr.cmd.offset from rfl, csrWrite_cmd,
      ifIdle_idle _ (by exact hb)]
  refine ⟨_, hstep, rfl, rfl, rfl, rfl, rfl, rfl, rfl, rfl, ⟨Ctx.fresh, rfl, rfl⟩, ⟨rfl, rfl, rfl, rfl, rfl, rfl⟩, ⟨rfl, rfl⟩,
    rfl, rfl, rfl, rfl, ?_⟩
  exact congrArg List.tail hp

/-- Settles O49: the segment answers, and what answers goes on or completes. -/
theorem everyPositionAnswers : Obligations.EveryPositionAnswers := by
  unfold Obligations.EveryPositionAnswers
  intro i s c hc hseg hs
  obtain ⟨t, ht⟩ := exec_answers i hc hseg
  obtain ⟨hcmd, -⟩ := exec_keepsOutside i s t ht
  exact ⟨t, ht, (exec_steps i hc t ht).goesOn_or_completes hs hc hseg hcmd⟩

/-- Settles O53, by the agent that moves. -/
theorem commandEndsByCompletionOrReset : Obligations.CommandEndsByCompletionOrReset := by
  unfold Obligations.CommandEndsByCompletionOrReset
  intro s t hs hb h ht
  exact step_ends hs hb h ht

end Sys2Proof.Machine
end

section
/-! SUPPORT. The two bus primitives, one equation per kind of answer (20_memory.md R77, 40_bus_adapter.md R130, R131, R132). -/

namespace Sys2Proof.Machine

/-! A write transaction, by its answer. -/

section Answers

variable {s : State} {t : Target} {left : Leftover} {bs : List Byte}

theorem busWrite_silent (h : s.target.nextAnswer = (some .silent, t)) (a : BitVec 7) (r : BitVec 8) (bytes : List Byte) :
    busWrite a r bytes s = none := by
  simp [busWrite, Target.write, h]

theorem busWrite_nackAddr (h : s.target.nextAnswer = (some (.nackAddr left), t)) (a : BitVec 7) (r : BitVec 8)
    (bytes : List Byte) :
    busWrite a r bytes s = some (.nackAddr, (countTransaction s).setTarget (t.disturb s.params a left)) := by
  simp [busWrite, Target.write, h]

theorem busWrite_nackByte {k : Nat} (h : s.target.nextAnswer = (some (.nackByte k left), t)) (a : BitVec 7) (r : BitVec 8)
    {bytes : List Byte} (hk : k ≤ bytes.length) :
    busWrite a r bytes s = some (.nackData k, (countTransaction s).setTarget (t.disturb s.params a left)) := by
  simp [busWrite, Target.write, h, hk]

theorem busWrite_ok (h : s.target.nextAnswer = (some (.ok bs), t)) (a : BitVec 7) (r : BitVec 8) (bytes : List Byte) :
    busWrite a r bytes s = some (.ack, (countTransaction s).setTarget (t.absorb s.params a r bytes)) := by
  simp [busWrite, Target.write, h]

theorem busWrite_short (h : s.target.nextAnswer = (some (.short bs left), t)) (a : BitVec 7) (r : BitVec 8)
    (bytes : List Byte) :
    busWrite a r bytes s = some (.ack, (countTransaction s).setTarget (t.absorb s.params a r bytes)) := by
  simp [busWrite, Target.write, h]

/-- Where the reference target answers by itself, it acknowledges its own address only (20_memory.md R77). -/
theorem busWrite_own (h : s.target.nextAnswer = (none, t)) (a : BitVec 7) (r : BitVec 8) (bytes : List Byte) :
    busWrite a r bytes s = some (if a = s.params.devAddr then (.ack, (countTransaction s).setTarget (t.absorb s.params a r bytes))
      else (.nackAddr, (countTransaction s).setTarget t)) := by
  by_cases ha : a = s.params.devAddr
  · simp [busWrite, Target.write, h, ha]
  · simp [busWrite, Target.write, h, ha]

/-! A read transaction, by its answer. -/

theorem busRead_silent (h : s.target.nextAnswer = (some .silent, t)) (a : BitVec 7) (r : BitVec 8) (n : Nat) :
    busRead a r n s = none := by
  simp [busRead, Target.read, h]

theorem busRead_nackAddr (h : s.target.nextAnswer = (some (.nackAddr left), t)) (a : BitVec 7) (r : BitVec 8) (n : Nat) :
    busRead a r n s
      = some ((.nack, []), setRcount 0 ((countTransaction s).setTarget (t.disturb s.params a left))) := by
  simp [busRead, Target.read, h]

theorem busRead_nackByte {k : Nat} (h : s.target.nextAnswer = (some (.nackByte k left), t)) (a : BitVec 7) (r : BitVec 8)
    (n : Nat) :
    busRead a r n s
      = some ((.nack, []), setRcount 0 ((countTransaction s).setTarget (t.disturb s.params a left))) := by
  simp [busRead, Target.read, h]

theorem busRead_ok (h : s.target.nextAnswer = (some (.ok bs), t)) (a : BitVec 7) (r : BitVec 8) (n : Nat) :
    busRead a r n s = some ((if (bs.take n).length = n then .none else .short, bs.take n),
      setRcount (bs.take n).length
        ((countTransaction s).setTarget (t.point s.params a r (bs.take n).length))) := by
  simp [busRead, Target.read, h]

/-- A short read phase returns fewer bytes than asked for, so its code is `SHORT` (40_bus_adapter.md R131, log 10). -/
theorem busRead_short (h : s.target.nextAnswer = (some (.short bs left), t)) (a : BitVec 7) (r : BitVec 8) {n : Nat}
    (hn : 1 ≤ n) :
    busRead a r n s = some ((.short, bs.take (n - 1)),
      setRcount (bs.take (n - 1)).length ((countTransaction s).setTarget (t.disturb s.params a left))) := by
  have hlen : (bs.take (n - 1)).length ≠ n := by rw [List.length_take]; omega
  simp only [busRead, Target.read, h, if_neg hlen]

/-- The reference target by itself returns all the bytes asked for (20_memory.md R77). -/
theorem busRead_own_device (h : s.target.nextAnswer = (none, t)) (r : BitVec 8) (n : Nat) :
    busRead s.params.devAddr r n s = some ((.none, (t.fetchBurst s.params n r).1),
      setRcount n ((countTransaction s).setTarget (t.fetchBurst s.params n r).2)) := by
  simp [busRead, Target.read, h, Target.fetchBurst_length]

theorem busRead_own_elsewhere (h : s.target.nextAnswer = (none, t)) {a : BitVec 7} (ha : a ≠ s.params.devAddr)
    (r : BitVec 8) (n : Nat) : busRead a r n s = some ((.nack, []), setRcount 0 ((countTransaction s).setTarget t)) := by
  simp [busRead, Target.read, h, ha]

end Answers

/-! The counters. -/

/-- `TXCOUNT` saturates at 0xFFFF (40_bus_adapter.md R130). -/
theorem countUp_toNat (n : BitVec 16) : (countUp n).toNat = min (n.toNat + 1) 0xFFFF := by
  unfold countUp
  split
  · next h => subst h; rfl
  · next h =>
    have hlt : n.toNat ≠ 0xFFFF := fun he => h (BitVec.eq_of_toNat_eq he)
    rw [BitVec.toNat_add, show (1 : BitVec 16).toNat = 1 from rfl]
    omega

/-- An answered write is counted and changes nothing else but the target. -/
theorem busWrite_counts {a : BitVec 7} {r : BitVec 8} {bytes : List Byte} {s s' : State} {o : WriteOutcome}
    (h : busWrite a r bytes s = some (o, s')) :
    s'.result.txcount.toNat = min (s.result.txcount.toNat + 1) 0xFFFF
      ∧ s' = { s with target := s'.target, result := { s.result with txcount := s'.result.txcount } } := by
  obtain ⟨t, -, rfl⟩ := busWrite_spec h
  exact ⟨countUp_toNat _, rfl⟩

/-- An answered read is counted, its bytes are counted, and it changes nothing else but the target. -/
theorem busRead_counts {a : BitVec 7} {r : BitVec 8} {n : Nat} {s s' : State} {code : ErrCode} {bytes : List Byte}
    (hn : n ≤ 32) (h : busRead a r n s = some ((code, bytes), s')) :
    s'.result.txcount.toNat = min (s.result.txcount.toNat + 1) 0xFFFF ∧ s'.result.rcount.toNat = bytes.length
      ∧ bytes.length ≤ n ∧ s' = { s with target := s'.target, result := { s'.result with idValue := s.result.idValue } } := by
  obtain ⟨o, bs, t, hread, ⟨-, rfl, -, rfl⟩ | ⟨-, rfl, -, rfl⟩⟩ := busRead_spec h
  · obtain ⟨hlen, -⟩ := Target.read_spec hread
    have hrcount : (BitVec.ofNat 8 bytes.length).toNat = bytes.length := by rw [BitVec.toNat_ofNat]; omega
    exact ⟨countUp_toNat _, hrcount, hlen, rfl⟩
  · exact ⟨countUp_toNat _, rfl, Nat.zero_le n, rfl⟩

/-- The code of an answered read says how many bytes it returned (40_bus_adapter.md R131). -/
theorem busRead_code_bytes {a : BitVec 7} {r : BitVec 8} {n : Nat} {s s' : State} {code : ErrCode} {bytes : List Byte}
    (h : busRead a r n s = some ((code, bytes), s')) :
    (code = .none → bytes.length = n) ∧ (code = .short → bytes.length ≠ n) ∧ (code = .nack → bytes = []) := by
  obtain ⟨o, bs, t, -, ⟨-, rfl, rfl, -⟩ | ⟨-, rfl, rfl, -⟩⟩ := busRead_spec h
  · split
    · next hlen => exact ⟨fun _ => hlen, nofun, nofun⟩
    · next hlen => exact ⟨nofun, fun _ => hlen, nofun⟩
  · exact ⟨nofun, nofun, fun _ => rfl⟩

end Sys2Proof.Machine
end

section
/-! SUPPORT. The raw commands (40_bus_adapter.md R135 to R137): what the snoop writes, and the one segment of `WRITE` and `READ`. -/

namespace Sys2Proof.Machine

/-! The snoop of `WRITE`. -/

theorem coversBankReg_iff {p : Params} {a : BitVec 7} {r : BitVec 8} {n : BitVec 6} :
    coversBankReg p a r n = true
      ↔ a = p.devAddr ∧ r.toNat ≤ p.cfg0Reg.toNat ∧ p.cfg0Reg.toNat ≤ r.toNat + n.toNat - 1 := by
  simp only [coversBankReg, Bool.and_eq_true, decide_eq_true_eq, and_assoc]

/-- One bit of a byte, as the mirror shows it. -/
theorem bankOfByte_eq (p : Params) (v : Byte) : bankOfByte p v = BitVec.ofBool (v.getLsbD p.bankBit.val) := by
  refine BitVec.eq_of_getLsbD_eq fun i hi => ?_
  obtain rfl : i = 0 := by omega
  simp [bankOfByte]

/-- A byte of the data of `WRITE` is the byte of `BUF` (40_bus_adapter.md R136). -/
theorem bufPrefix_getD (buf : Vector Byte 32) {n k : Nat} (hk : k < n) :
    (bufPrefix buf n).getD k 0 = buf.toList.getD k 0 := by
  simp only [bufPrefix, List.getD_eq_getElem?_getD, List.getElem?_take_of_lt hk]

section Snoop

variable {a : BitVec 7} {r : BitVec 8} {n : BitVec 6} {s : State}

theorem snoop_uncovered (h : ¬coversBankReg s.params a r n = true) (o : WriteOutcome) : snoop a r n o s = s := if_neg h

theorem snoop_failed (h : coversBankReg s.params a r n = true) {o : WriteOutcome} (ho : o ≠ .ack) :
    snoop a r n o s = setMirror bankUnknown s := (if_pos h).trans (if_neg ho)

/-- The burst holds the byte of the bank register, since it covers it. -/
theorem snoop_acked (h : coversBankReg s.params a r n = true) (hn : 1 ≤ n.toNat) :
    snoop a r n .ack s = setMirror ((BitVec.ofBool
      ((s.buf.toList.getD (s.params.cfg0Reg.toNat - r.toNat) 0).getLsbD s.params.bankBit.val)).zeroExtend 2) s := by
  obtain ⟨-, hle, htop⟩ := coversBankReg_iff.mp h
  rw [← bankOfByte_eq, ← bufPrefix_getD s.buf (show s.params.cfg0Reg.toNat - r.toNat < n.toNat by omega)]
  exact (if_pos h).trans (if_pos rfl)

end Snoop

/-! The segment of each command. -/

/-- Entry `k` of a filled buffer (40_bus_adapter.md R137). -/
theorem bufFill_getD (buf : Vector Byte 32) (bytes : List Byte) (k : Fin 32) :
    (bufFill buf bytes)[k] = bytes.getD k.val buf[k] := by
  refine (bufFill_get buf bytes k.val k.isLt).trans ?_
  split
  · next h => exact (List.getD_eq_getElem bytes _ h).symm
  · next h => exact (List.getD_eq_default bytes _ (by omega)).symm

/-- The end of `WRITE`, after its transaction: the snoop, then completion with the outcome (40_bus_adapter.md R135, R136). -/
def finishWrite (a : BitVec 7) (r : BitVec 8) (n : BitVec 6) (o : WriteOutcome) (s : State) : State :=
  if o = .ack then succeed (snoop a r n o s) else fail .nack (snoop a r n o s)

/-- The end of `READ`, after its transaction: the bytes go to `BUF`, then completion with the code (40_bus_adapter.md R137). -/
def finishRead (code : ErrCode) (bytes : List Byte) (s : State) : State :=
  if code = .none then succeed (s.setBuf (bufFill s.buf bytes)) else fail code (s.setBuf (bufFill s.buf bytes))

section Commands

variable {a : BitVec 7} {r : BitVec 8} {n : BitVec 6} {s s' t : State} {c : Ctx}

/-- `WRITE` with a legal range and an answered transaction (40_bus_adapter.md R136). -/
theorem execWrite_answered {o : WriteOutcome} (hc : s.ctx = some c) (hseg : c.seg = .start) (hok : burstOk r n = true)
    (hw : busWrite a r (s.buf.toList.take n.toNat) s = some (o, s')) :
    exec (.write a r n) s = .next (finishWrite a r n o s') := by
  rw [execWrite_start a r n hc hseg, if_pos hok]
  exact onWrite_answered hw

/-- `READ` with a legal range and an answered transaction (40_bus_adapter.md R137). -/
theorem execRead_answered {code : ErrCode} {bytes : List Byte} (hc : s.ctx = some c) (hseg : c.seg = .start)
    (hok : burstOk r n = true) (hr : busRead a r n.toNat s = some ((code, bytes), s')) :
    exec (.read a r n) s = .next (finishRead code bytes s') := by
  rw [execRead_start a r n hc hseg, if_pos hok]
  exact onRead_answered hr

/-- `WRITE` has one position (30_encoding.md R107). -/
theorem execWrite_at_start (h : exec (.write a r n) s = .next t) : ∃ c, s.ctx = some c ∧ c.seg = .start := by
  obtain ⟨c, hc, hrun⟩ := inCommand_next h
  refine ⟨c, hc, ?_⟩
  split at hrun
  · next hseg => exact hseg
  · cases hrun

/-- Without a transaction that is answered, `WRITE` keeps the mirror (40_bus_adapter.md R135). -/
theorem execWrite_keeps_bank (h : exec (.write a r n) s = .next t)
    (hno : busWrite a r (s.buf.toList.take n.toNat) s = none ∨ burstOk r n = false) :
    t.status.bank = s.status.bank := by
  obtain ⟨c, hc, hseg⟩ := execWrite_at_start h
  rw [execWrite_start a r n hc hseg] at h
  split at h
  · next hok =>
    refine onWrite_elim (P := fun u => u.status.bank = s.status.bank) h rfl fun o s' hw => ?_
    obtain hnone | hbad := hno
    · cases hnone.symm.trans hw
    · rw [hok] at hbad; cases hbad
  · cases h; rfl

/-- `READ` writes no mirror (40_bus_adapter.md R135). -/
theorem execRead_keeps_bank (h : exec (.read a r n) s = .next t) : t.status.bank = s.status.bank := by
  obtain ⟨c, -, hstep⟩ := exec_segmentStep h
  obtain hkept | ⟨hm, -⟩ := hstep.bank
  · exact hkept
  · cases hm

/-- The mirror after `WRITE` is the one that the snoop leaves. -/
theorem finishWrite_bank (o : WriteOutcome) : (finishWrite a r n o s).status.bank = (snoop a r n o s).status.bank := by
  unfold finishWrite
  split <;> rfl

/-- The end of `WRITE` makes no transaction. -/
theorem finishWrite_afterTransaction (o : WriteOutcome) : AfterTransaction s (finishWrite a r n o s) := by
  unfold finishWrite
  rw [snoop_mirror]
  split <;> exact ⟨rfl, rfl⟩

/-- `WRITE` completes with the outcome of its transaction (40_bus_adapter.md R136). -/
theorem finishWrite_completes (hcmd : s'.cmd = s.cmd) (o : WriteOutcome) :
    (o = .ack → Completes true .none s (finishWrite a r n o s'))
      ∧ (o ≠ .ack → Completes false .nack s (finishWrite a r n o s')) := by
  have hsnoop : (snoop a r n o s').cmd = s.cmd := by rw [snoop_mirror]; exact hcmd
  refine ⟨fun ho => ?_, fun ho => ?_⟩
  · rw [finishWrite, if_pos ho]; exact completes_succeed hsnoop
  · rw [finishWrite, if_neg ho]; exact completes_fail hsnoop .nack

/-- The end of `READ` makes no transaction, and what it writes of the data registers is `BUF`. -/
theorem finishRead_afterTransaction (code : ErrCode) (bytes : List Byte) :
    AfterTransaction s (finishRead code bytes s) ∧ (finishRead code bytes s).buf = bufFill s.buf bytes := by
  unfold finishRead
  generalize bufFill s.buf bytes = filled
  split <;> exact ⟨⟨rfl, rfl⟩, rfl⟩

/-- `READ` completes with the code of its transaction (40_bus_adapter.md R137). -/
theorem finishRead_completes (hcmd : s'.cmd = s.cmd) (code : ErrCode) (bytes : List Byte) :
    Completes (decide (code = .none)) code s (finishRead code bytes s') := by
  unfold finishRead
  generalize bufFill s'.buf bytes = filled
  split
  · next h => subst h; exact completes_succeed hcmd
  · next h => rw [decide_eq_false h]; exact completes_fail hcmd code

end Commands

end Sys2Proof.Machine
end

section
/-! SUPPORT. A target that never answers (30_encoding.md R107, 40_bus_adapter.md R132): every segment of every command stays
where it is or makes no transaction. -/

namespace Sys2Proof.Machine

/-- The next transaction is never answered. -/
def FacesSilence (s : State) : Prop := s.target.nextAnswer.1 = some .silent

/-- A segment of `i` at `c` from `s` stays where it is, or its position is no transaction and it makes none. -/
def HeldOrOffBus (i : Instr) (c : Ctx) (s : State) (o : Out) : Prop :=
  o = .next s ∨ onBus i c s = false ∧ ∃ t, o = .next t ∧ NoTransaction s t

section Rules

variable {i : Instr} {c : Ctx} {s : State}

theorem onWrite_held (hs : FacesSilence s) (a : BitVec 7) (r : BitVec 8) (bytes : List Byte)
    (k : WriteOutcome → State → State) : HeldOrOffBus i c s (onWrite a r bytes s k) := by
  refine .inl ?_
  rw [onWrite, busWrite_silent (Prod.ext hs rfl)]

theorem onRead_held (hs : FacesSilence s) (a : BitVec 7) (r : BitVec 8) (n : Nat)
    (k : ErrCode → List Byte → State → State) : HeldOrOffBus i c s (onRead a r n s k) := by
  refine .inl ?_
  rw [onRead, busRead_silent (Prod.ext hs rfl)]

theorem rd_held (hs : FacesSilence s) (r : BitVec 8) (n : Nat) (k : List Byte → State → State) :
    HeldOrOffBus i c s (rd r n s k) := onRead_held hs _ _ _ _

theorem rmwRead_held (hs : FacesSilence s) (r : BitVec 8) (next : Seg) : HeldOrOffBus i c s (rmwRead r next c s) :=
  rd_held hs r 1 _

theorem waitPoll_held (hs : FacesSilence s) (k : State → State) : HeldOrOffBus i c s (waitPoll c s k) :=
  rd_held hs s.params.statusReg 1 _

/-- A segment of the controller alone. -/
theorem offBus_next {t : State} (hoff : onBus i c s = false) (ht : NoTransaction s t) : HeldOrOffBus i c s (.next t) :=
  .inr ⟨hoff, t, rfl, ht⟩

/-- The position of a `Now()` is no transaction (30_encoding.md R107). -/
theorem onBus_now (i : Instr) (s : State) (h : c.seg ∈ [Seg.delayStart, .delayLoop, .waitStart, .waitCheck]) :
    onBus i c s = false := by
  rw [← Bool.not_eq_true, onBus_iff]
  exact fun hat => hat.1 h

/-- The first statement of a command that does not begin with a transaction. -/
theorem onBus_start (hseg : c.seg = .start) (h : opensOnBus i s = false) : onBus i c s = false := by
  simp [onBus, hseg, h]

theorem waitTimeCheck_offBus (hseg : c.seg = .waitCheck) : HeldOrOffBus i c s (waitTimeCheck c s) := by
  refine offBus_next (onBus_now i s (by simp [hseg])) ?_
  split <;> exact ⟨rfl, rfl⟩

theorem latchNow_offBus (next : Seg) (hoff : onBus i c s = false) : HeldOrOffBus i c s (latchNow next c s) :=
  offBus_next hoff ⟨rfl, rfl⟩

/-- A check at the first statement: where it fails, the command fails at once (30_encoding.md R106). -/
theorem check_offBus {p : Prop} [Decidable p] {code : ErrCode} {o : Out} (hseg : c.seg = .start)
    (hcheck : p → opensOnBus i s = false) (ho : HeldOrOffBus i c s o) :
    HeldOrOffBus i c s (if p then .next (fail code s) else o) := by
  split
  · next hp => exact offBus_next (onBus_start hseg (hcheck hp)) ⟨rfl, rfl⟩
  · exact ho

end Rules

/-! The commands, by their positions (30_encoding.md R107). -/

section Commands

variable {s : State} {c : Ctx}

theorem execWrite_held (hs : FacesSilence s) (a : BitVec 7) (r : BitVec 8) (n : BitVec 6) (hc : s.ctx = some c)
    (hseg : c.seg = .start) : HeldOrOffBus (.write a r n) c s (exec (.write a r n) s) := by
  rw [execWrite_start a r n hc hseg]
  split
  · exact onWrite_held hs _ _ _ _
  · next hbad => exact offBus_next (onBus_start hseg (Bool.eq_false_iff.mpr hbad)) ⟨rfl, rfl⟩

theorem execRead_held (hs : FacesSilence s) (a : BitVec 7) (r : BitVec 8) (n : BitVec 6) (hc : s.ctx = some c)
    (hseg : c.seg = .start) : HeldOrOffBus (.read a r n) c s (exec (.read a r n) s) := by
  rw [execRead_start a r n hc hseg]
  split
  · exact onRead_held hs _ _ _ _
  · next hbad => exact offBus_next (onBus_start hseg (Bool.eq_false_iff.mpr hbad)) ⟨rfl, rfl⟩

theorem execIsConnected_held (hs : FacesSilence s) (hc : s.ctx = some c) (hseg : c.seg ∈ segments .isConnected) :
    HeldOrOffBus .isConnected c s (execIsConnected s) := by
  rw [execIsConnected, inCommand_some hc]
  cases hg : c.seg with
  | start | idRead | backRead => exact onRead_held hs _ _ _ _
  | bankWrite | backWrite => exact onWrite_held hs _ _ _ _
  | _ => rw [hg] at hseg; exact absurd hseg (by decide)

theorem execInit_held (hs : FacesSilence s) (hc : s.ctx = some c) (hseg : c.seg ∈ segments .init) :
    HeldOrOffBus .init c s (execInit s) := by
  rw [execInit, inCommand_some hc]
  cases hg : c.seg with
  | start | ponRead | smuxRead | gainRead | spenRead => exact rmwRead_held hs _ _
  | bankWrite | ponWrite | smuxWrite | gainWrite | spenWrite => exact onWrite_held hs _ _ _ _
  | delayStart => exact latchNow_offBus .delayLoop (onBus_now .init s (by simp [hg]))
  | delayLoop => exact offBus_next (onBus_now .init s (by simp [hg])) ⟨rfl, rfl⟩
  | _ => rw [hg] at hseg; exact absurd hseg (by decide)

theorem execSetGain_held (hs : FacesSilence s) (hc : s.ctx = some c) (hseg : c.seg ∈ segments .setGain) :
    HeldOrOffBus .setGain c s (exec .setGain s) := by
  obtain hg | hg : c.seg = .start ∨ c.seg = .gainWrite := by simpa [segments] using hseg
  · rw [execSetGain_start hc hg]
    refine check_offBus hg (fun hbad => ?_) (check_offBus hg (fun hbank => ?_) (rmwRead_held hs _ _))
    · rw [opensOnBus, decide_eq_false (Nat.not_le.mpr hbad), Bool.false_and]
    · rw [opensOnBus, decide_eq_false hbank, Bool.and_false]
  · rw [execSetGain_gainWrite hc hg]
    exact onWrite_held hs _ _ _ _

theorem execSetItime_held (hs : FacesSilence s) (hc : s.ctx = some c) (hseg : c.seg ∈ segments .setItime) :
    HeldOrOffBus .setItime c s (execSetItime s) := by
  rw [execSetItime, inCommand_some hc]
  cases hg : c.seg with
  | start => exact check_offBus hg (fun hbank => decide_eq_false hbank) (onWrite_held hs _ _ _ _)
  | astepLow | astepHigh => exact onWrite_held hs _ _ _ _
  | _ => rw [hg] at hseg; exact absurd hseg (by decide)

theorem execWaitDataReady_held (hs : FacesSilence s) (hc : s.ctx = some c) (hseg : c.seg ∈ segments .waitDataReady) :
    HeldOrOffBus .waitDataReady c s (execWaitDataReady s) := by
  rw [execWaitDataReady, inCommand_some hc]
  cases hg : c.seg with
  | start => exact latchNow_offBus .waitCheck (onBus_start hg rfl)
  | waitCheck => exact waitTimeCheck_offBus hg
  | poll => exact waitPoll_held hs _
  | _ => rw [hg] at hseg; exact absurd hseg (by decide)

/-- `READ_ALL` and `GET_SORTED` share every position; they differ in `finish` only (43_acquisition.md R188). -/
theorem acquire_held {i : Instr} (finish : State → State) (hs : FacesSilence s) (hc : s.ctx = some c)
    (hseg : c.seg ∈ segments .readAll) : HeldOrOffBus i c s (acquire finish s) := by
  rw [acquire, inCommand_some hc]
  cases hg : c.seg with
  | start => exact onRead_held hs _ _ _ _
  | bankWrite => exact onWrite_held hs _ _ _ _
  | waitStart => exact latchNow_offBus .waitCheck (onBus_now i s (by simp [hg]))
  | waitCheck => exact waitTimeCheck_offBus hg
  | poll => exact waitPoll_held hs _
  | channel => exact rd_held hs _ _ _
  | _ => rw [hg] at hseg; exact absurd hseg (by decide)

/-- Against silence every segment of every command stays where it is or makes no transaction. -/
theorem exec_held (i : Instr) (hs : FacesSilence s) (hc : s.ctx = some c) (hseg : c.seg ∈ segments i) :
    HeldOrOffBus i c s (exec i s) := by
  cases i with
  | write a r n => exact execWrite_held hs a r n hc (List.mem_singleton.mp hseg)
  | read a r n => exact execRead_held hs a r n hc (List.mem_singleton.mp hseg)
  | setBank =>
    obtain hg | hg : c.seg = .start ∨ c.seg = .bankWrite := by simpa [segments] using hseg
    · rw [exec, execSetBank, inCommand_some hc, hg]
      exact rmwRead_held hs _ _
    · rw [exec, execSetBank, inCommand_some hc, hg]
      exact onWrite_held hs _ _ _ _
  | isConnected => exact execIsConnected_held hs hc hseg
  | init => exact execInit_held hs hc hseg
  | setGain => exact execSetGain_held hs hc hseg
  | setItime => exact execSetItime_held hs hc hseg
  | setTimeout =>
    have hg : c.seg = .start := List.mem_singleton.mp hseg
    rw [exec, execSetTimeout, inCommand_some hc, hg]
    exact offBus_next (onBus_start hg rfl) ⟨rfl, rfl⟩
  | waitDataReady => exact execWaitDataReady_held hs hc hseg
  | readAll => exact acquire_held _ hs hc hseg
  | getSorted => exact acquire_held _ hs hc hseg

end Commands

end Sys2Proof.Machine
end

section
/-! SUPPORT. What a failed or cut transaction can leave in the reference target (40_bus_adapter.md R130,
70_reset_and_hazards.md R260, R268, R276): a list of stores that gives every register and the pointer any contents. -/

namespace Sys2Proof.Machine

/-! Listed stores, one register after the other. -/

theorem Target.storeAll_append (p : Params) (xs ys : List (BitVec 8 × Byte)) :
    ∀ t : Target, t.storeAll p (xs ++ ys) = (t.storeAll p xs).storeAll p ys := by
  induction xs with
  | nil => intro t; rfl
  | cons x xs ih => intro t; exact ih (t.storeReg p x.1 x.2)

theorem Target.storeAll_cons_append (p : Params) (r : BitVec 8) (v : Byte) (xs ys : List (BitVec 8 × Byte)) (t : Target) :
    t.storeAll p ((r, v) :: xs ++ ys) = ((t.storeReg p r v).storeAll p xs).storeAll p ys :=
  Target.storeAll_append p ((r, v) :: xs) ys t

/-- Of listed stores that give each register `r` the byte `f r`, the last one to a register decides what it holds. The bank at that
store is the one before the list where the list leaves the bank register alone (20_memory.md R76). -/
theorem Target.storeAll_last (p : Params) (f : BitVec 8 → Byte) {r : BitVec 8} {rs : List (BitVec 8)} (hr : r ∈ rs) :
    ∀ t : Target, ∃ u : Target, ((∀ x ∈ rs, x.toNat < p.cfg0Reg.toNat) → u.inBank1 p = t.inBank1 p)
      ∧ (u.storeReg p r (f r)).SameAt r.toNat (t.storeAll p (rs.map fun x => (x, f x))) := by
  induction rs with
  | nil => cases hr
  | cons x rs ih =>
    intro t
    by_cases hmem : r ∈ rs
    · obtain ⟨u, hbank, hsame⟩ := ih hmem (t.storeReg p x (f x))
      refine ⟨u, fun hlow => (hbank fun y hy => hlow y (.tail x hy)).trans ?_, hsame⟩
      exact Target.storeReg_inBank1 (hlow x List.mem_cons_self) (f x) t
    · obtain rfl : r = x := (List.mem_cons.mp hr).resolve_right hmem
      refine ⟨t, fun _ => rfl, Target.storeAll_other p _ _ fun y hy heq => hmem ?_⟩
      obtain ⟨x, hx, rfl⟩ := List.mem_map.mp hy
      exact BitVec.eq_of_toNat_eq heq ▸ hx

/-- A store at 0x80 or above, the last one of a list to its register (20_memory.md R76). -/
theorem Target.storeAll_reg (p : Params) (f : BitVec 8 → Byte) {r : BitVec 8} {rs : List (BitVec 8)} (hr : r ∈ rs)
    (hhigh : 0x80 ≤ r.toNat) (t : Target) : (t.storeAll p (rs.map fun x => (x, f x))).reg r = f r := by
  obtain ⟨u, -, hsame⟩ := Target.storeAll_last p f hr t
  rw [hsame.reg.1, Target.reg, ((Target.storeReg_resolves p r (f r) u).1 hhigh).1, Option.getD_some]

/-- A store below 0x80 in bank 1, the last one of a list to its register (20_memory.md R76). -/
theorem Target.storeAll_reg1 {p : Params} (hcfg : 0x80 ≤ p.cfg0Reg.toNat) (f : BitVec 8 → Byte) {r : BitVec 8}
    {rs : List (BitVec 8)} (hr : r ∈ rs) (hlow : ∀ x ∈ rs, x.toNat < 0x80) {t : Target} (ht : t.inBank1 p = true) :
    (t.storeAll p (rs.map fun x => (x, f x))).reg1 r = f r := by
  obtain ⟨u, hbank, hsame⟩ := Target.storeAll_last p f hr t
  have hu : u.inBank1 p = true := (hbank fun x hx => (hlow x hx).trans_le hcfg).trans ht
  rw [hsame.reg.2, Target.reg1, ((Target.storeReg_resolves p r (f r) u).2.1 (hlow r hr) hu).1, Option.getD_some]

/-! The leftover that fills the device. -/

/-- The registers below 0x80. -/
def lowRegs : List (BitVec 8) := (List.range 0x80).map (BitVec.ofNat 8)

/-- The registers at 0x80 and above. -/
def highRegs : List (BitVec 8) := (List.range 0x80).map fun k => BitVec.ofNat 8 (0x80 + k)

theorem mem_lowRegs {r : BitVec 8} : r ∈ lowRegs ↔ r.toNat < 0x80 := by
  simp only [lowRegs, List.mem_map, List.mem_range]
  refine ⟨?_, fun h => ⟨r.toNat, h, (BitVec.ofNat_toNat 8 r).trans (BitVec.setWidth_eq r)⟩⟩
  rintro ⟨k, hk, rfl⟩
  rw [BitVec.toNat_ofNat]
  omega

theorem mem_highRegs {r : BitVec 8} : r ∈ highRegs ↔ 0x80 ≤ r.toNat := by
  simp only [highRegs, List.mem_map, List.mem_range]
  refine ⟨?_, fun h => ⟨r.toNat - 0x80, by omega, BitVec.eq_of_toNat_eq ?_⟩⟩
  · rintro ⟨k, hk, rfl⟩
    rw [BitVec.toNat_ofNat]
    omega
  · rw [BitVec.toNat_ofNat]
    omega

/-- Stores that give the device the registers `regs` at 0x80 and above, the bank-1 registers `regs1` below, and the pointer `ptr`:
first one that selects bank 1, then the registers below 0x80, and at the end those above, the bank register among them. -/
def Leftover.filling (p : Params) (regs regs1 : BitVec 8 → Byte) (ptr : BitVec 8) : Leftover where
  stores := (p.cfg0Reg, 0xFF) :: (lowRegs.map fun r => (r, regs1 r)) ++ highRegs.map fun r => (r, regs r)
  ptr := some ptr

/-- The device holds these registers in its two views, and this pointer. -/
def Target.Holds (regs regs1 : BitVec 8 → Byte) (ptr : BitVec 8) (t : Target) : Prop :=
  (∀ r, 0x80 ≤ r.toNat → t.reg r = regs r) ∧ (∀ r, r.toNat < 0x80 → t.reg1 r = regs1 r) ∧ t.ptr = ptr

theorem Target.holds_setPtr {regs regs1 : BitVec 8 → Byte} {t : Target} (hregs : ∀ r, 0x80 ≤ r.toNat → t.reg r = regs r)
    (hregs1 : ∀ r, r.toNat < 0x80 → t.reg1 r = regs1 r) (ptr : BitVec 8) : (t.setPtr ptr).Holds regs regs1 ptr :=
  ⟨hregs, hregs1, rfl⟩

section Filling

variable {p : Params}

/-- A byte of ones in the bank register selects bank 1, whatever its bit is (20_memory.md R76). -/
theorem Target.inBank1_storeReg_ones (hcfg : 0x80 ≤ p.cfg0Reg.toNat) (t : Target) :
    (t.storeReg p p.cfg0Reg 0xFF).inBank1 p = true := by
  rw [Target.inBank1, Target.reg, ((Target.storeReg_resolves p p.cfg0Reg 0xFF t).1 hcfg).1, Option.getD_some]
  exact (by decide : ∀ k : Fin 8, (0xFF : Byte).getLsbD k.val = true) p.bankBit

/-- The stores of `Leftover.filling` in order: bank 1 is selected while those below 0x80 are made, and those at 0x80 and above leave
them alone. -/
theorem Target.storeAll_filling (hcfg : 0x80 ≤ p.cfg0Reg.toNat) (regs regs1 : BitVec 8 → Byte) (ptr : BitVec 8) (t : Target) :
    (∀ r, 0x80 ≤ r.toNat → (t.storeAll p (Leftover.filling p regs regs1 ptr).stores).reg r = regs r)
      ∧ ∀ r, r.toNat < 0x80 → (t.storeAll p (Leftover.filling p regs regs1 ptr).stores).reg1 r = regs1 r := by
  have hstores : t.storeAll p (Leftover.filling p regs regs1 ptr).stores
      = ((t.storeReg p p.cfg0Reg 0xFF).storeAll p (lowRegs.map fun r => (r, regs1 r))).storeAll p
          (highRegs.map fun r => (r, regs r)) :=
    Target.storeAll_cons_append p _ _ _ _ t
  rw [hstores]
  refine ⟨fun r hr => Target.storeAll_reg p regs (mem_highRegs.mpr hr) hr _, fun r hr => ?_⟩
  have hlow := Target.storeAll_reg1 hcfg regs1 (mem_lowRegs.mpr hr) (fun x => mem_lowRegs.mp)
    (Target.inBank1_storeReg_ones hcfg t)
  rw [← hlow]
  refine (Target.storeAll_other p _ _ fun y hy heq => ?_).reg.2
  obtain ⟨x, hx, rfl⟩ := List.mem_map.mp hy
  have hhigh := mem_highRegs.mp hx
  dsimp only at heq
  omega

/-- Where the draw lists them, the device holds the registers and the pointer asked for. -/
theorem Target.leave_filling (hcfg : 0x80 ≤ p.cfg0Reg.toNat) (regs regs1 : BitVec 8 → Byte) (ptr : BitVec 8) (t : Target) :
    (t.leave p (Leftover.filling p regs regs1 ptr)).Holds regs regs1 ptr := by
  obtain ⟨hregs, hregs1⟩ := Target.storeAll_filling hcfg regs regs1 ptr t
  exact Target.holds_setPtr hregs hregs1 ptr

/-- Whatever state is asked for, a failed transaction to the device, or one that a reset cuts short, can leave it so
(40_bus_adapter.md R130, 70_reset_and_hazards.md R260). -/
theorem Leftover.exists_filling (hcfg : 0x80 ≤ p.cfg0Reg.toNat) (regs regs1 : BitVec 8 → Byte) (ptr : BitVec 8) :
    ∃ left : Leftover, ∀ t : Target, t.kind = .reference → (t.disturb p p.devAddr left).Holds regs regs1 ptr := by
  refine ⟨Leftover.filling p regs regs1 ptr, fun t hkind => ?_⟩
  have hdev : t.isDevice p p.devAddr = true := by simp [Target.isDevice, hkind]
  rw [Target.disturb, if_pos hdev]
  exact Target.leave_filling hcfg regs regs1 ptr t

end Filling

/-! A reset at a transaction. -/

/-- Every command but a raw one to another address goes to the device (40_bus_adapter.md R133, R136, R137). -/
theorem busAddress_eq_devAddr {i : Instr} {s : State}
    (h : ∀ a r n, i = .write a r n ∨ i = .read a r n → a = s.params.devAddr) : busAddress i s = s.params.devAddr := by
  cases i with
  | write a r n => exact h a r n (.inl rfl)
  | read a r n => exact h a r n (.inr rfl)
  | _ => rfl

/-- A reset at a transaction to the device cuts it off. -/
theorem hostReset_target_of_atTransaction {s : State} {i : Instr} {c : Ctx} (hb : s.status.busy = true)
    (hi : decode s.cmd = .ok i) (hc : s.ctx = some c) (hat : atTransaction i c s) (cut : Leftover) :
    (hostReset cut s).target = s.target.cutOff s.params (busAddress i s) cut := by
  have hp : pendingAddress s = some (busAddress i s) := pendingAddress_eq_some.mpr ⟨hb, c, i, hc, hi, hat, rfl⟩
  simp [hostReset, hp]

end Sys2Proof.Machine
end

section
/-! SUPPORT. The obligations of 40_bus_adapter.md. -/

namespace Sys2Proof.Machine

/-- Settles O21, by the equation of each answer. -/
theorem busWriteOutcomes : Obligations.BusWriteOutcomes := by
  unfold Obligations.BusWriteOutcomes
  intro a r bytes s
  refine ⟨fun o s' => busWrite_counts, fun h => busWrite_silent (Prod.ext h rfl) a r bytes,
    fun left h => ⟨_, busWrite_nackAddr (Prod.ext h rfl) a r bytes⟩,
    fun k left h hk => ⟨_, busWrite_nackByte (Prod.ext h rfl) a r hk⟩,
    fun bs h => ⟨_, busWrite_ok (Prod.ext h rfl) a r bytes⟩,
    fun bs left h => ⟨_, busWrite_short (Prod.ext h rfl) a r bytes⟩, fun h => ?_⟩
  rw [busWrite_own (Prod.ext h rfl) a r bytes]
  split
  · exact ⟨_, rfl⟩
  · exact ⟨_, rfl⟩

/-- Settles O22, by the equation of each answer. -/
theorem busReadOutcomes : Obligations.BusReadOutcomes := by
  unfold Obligations.BusReadOutcomes
  intro a r n s hn
  refine ⟨fun code bytes s' h => ?_, fun h => busRead_silent (Prod.ext h rfl) a r n,
    fun left h => ⟨_, busRead_nackAddr (Prod.ext h rfl) a r n⟩,
    fun k left h => ⟨_, busRead_nackByte (Prod.ext h rfl) a r n⟩,
    fun bs left h hn1 => ⟨_, busRead_short (Prod.ext h rfl) a r hn1⟩, fun h => ⟨fun ha => ?_, fun ha => ?_⟩,
    fun bs h => ⟨_, busRead_ok (Prod.ext h rfl) a r n⟩⟩
  · obtain ⟨htx, hrc, hle, hframe⟩ := busRead_counts hn h
    obtain ⟨hnone, hshort, hnack⟩ := busRead_code_bytes h
    exact ⟨htx, hrc, hle, hnone, hshort, hnack, busRead_code h, hframe⟩
  · subst ha
    exact ⟨_, _, busRead_own_device (Prod.ext h rfl) r n, Target.fetchBurst_length _ _ _ _⟩
  · exact ⟨_, busRead_own_elsewhere (Prod.ext h rfl) ha r n⟩

/-- Settles O23: a segment that does not stay is at no transaction, and makes none. -/
theorem silentTargetHoldsCommand : Obligations.SilentTargetHoldsCommand := by
  unfold Obligations.SilentTargetHoldsCommand
  intro i s c hc hseg hs
  have hheld := exec_held i hs hc hseg
  have hstays (hat : atTransaction i c s) : exec i s = .next s := by
    obtain hstays | ⟨hoff, -⟩ := hheld
    · exact hstays
    · rw [(onBus_iff i c s).mpr hat] at hoff; cases hoff
  refine ⟨fun hg => hstays ⟨fun hnow => hg (.tail _ hnow), fun hstart => ?_⟩,
    fun hg hstart => hstays ⟨?_, fun _ => hstart⟩, fun t ht => ?_⟩
  · rw [hstart] at hg; exact absurd List.mem_cons_self hg
  · rw [hg]; decide
  · obtain hsame | ⟨-, u, hu, hno⟩ := hheld
    · rw [hsame] at ht; cases ht; exact ⟨rfl, rfl⟩
    · rw [hu] at ht; cases ht; exact hno

/-- Settles O26: the registers that `WRITE` leaves are those of every command that is not their writer. -/
theorem writeCompletesWithBusOutcome : Obligations.WriteCompletesWithBusOutcome := by
  unfold Obligations.WriteCompletesWithBusOutcome
  intro a r n s s' c o hc hseg h1 h32 htop hw
  have hrun := execWrite_answered hc hseg (burstOk_iff.mpr ⟨h1, h32, htop⟩) hw
  obtain ⟨-, -, -, ⟨hcmd, -⟩, -⟩ := busWrite_same hw
  obtain ⟨-, harg, -⟩ := exec_keepsOutside _ s _ hrun
  obtain ⟨htimeout, hbuf, hchannels, hsorted, hid, -⟩ := dataRegistersHaveOneWriter _ s _ hrun
  obtain ⟨hch, hvalid⟩ := hchannels nofun nofun
  exact ⟨_, hrun, finishWrite_afterTransaction o,
    ⟨harg, htimeout nofun, hbuf nofun, hch, hsorted nofun, hid nofun⟩, hvalid,
    exec_keepsOutside _ s _ hrun, finishWrite_completes hcmd o⟩

/-- Settles O27: the mirror after `WRITE` is the snoop's; the other raw segments write none. -/
theorem rawWriteSnoop : Obligations.RawWriteSnoop := by
  unfold Obligations.RawWriteSnoop
  refine ⟨fun a r n s s' t c o hc hseg h1 h32 htop hw hrun => ?_, fun a r n s t hno hrun => ?_,
    fun a r n s t => execRead_keeps_bank⟩
  · rw [execWrite_answered hc hseg (burstOk_iff.mpr ⟨h1, h32, htop⟩) hw] at hrun
    cases hrun
    obtain ⟨hstatus, -, ⟨-, -, hbuf, -⟩, ⟨-, -, -, -, -, -, -, hparams, -⟩, -⟩ := busWrite_same hw
    rw [finishWrite_bank, ← hparams, ← hbuf, ← hstatus, ← coversBankReg_iff]
    refine ⟨fun hcov ho => ?_, fun hcov ho => ?_, fun hcov => ?_⟩
    · rw [snoop_failed hcov ho]; rfl
    · rw [ho, snoop_acked hcov h1]; rfl
    · rw [snoop_uncovered hcov]
  · refine execWrite_keeps_bank hrun (hno.imp_right fun hbad => ?_)
    rw [← burstOk_iff] at hbad
    exact Bool.eq_false_iff.mpr hbad

/-- Settles O28: the received bytes fill `BUF`, and the registers that `READ` does not write stay. -/
theorem readFillsBufferAndCompletes : Obligations.ReadFillsBufferAndCompletes := by
  unfold Obligations.ReadFillsBufferAndCompletes
  intro a r n s s' c code bytes hc hseg h1 h32 htop hr
  have hrun := execRead_answered hc hseg (burstOk_iff.mpr ⟨h1, h32, htop⟩) hr
  obtain ⟨-, -, ⟨-, -, hbuf, -⟩, ⟨hcmd, -⟩⟩ := busRead_same hr
  obtain ⟨htx, hfilled⟩ := finishRead_afterTransaction (s := s') code bytes
  obtain ⟨htimeout, -, hchannels, hsorted, -⟩ := dataRegistersHaveOneWriter _ s _ hrun
  obtain ⟨hch, hvalid⟩ := hchannels nofun nofun
  refine ⟨_, hrun, htx, fun k => ?_, finishRead_completes hcmd code bytes, hvalid, exec_keepsOutside _ s _ hrun, hch,
    hsorted nofun, htimeout nofun, execRead_keeps_bank hrun⟩
  rw [hfilled, hbuf]
  exact bufFill_getD s.buf bytes k

/-- Settles O57: the stores of `Leftover.filling` give any state, and each way to fail leaves what its draw lists. -/
theorem failedTransactionLeavesAnyState : Obligations.FailedTransactionLeavesAnyState := by
  unfold Obligations.FailedTransactionLeavesAnyState
  intro s regs regs1 ptr hkind hcfg
  obtain ⟨left, hfill⟩ := Leftover.exists_filling hcfg regs regs1 ptr
  refine ⟨left, ?_⟩
  intro becomes drawing
  have hnext (d : Draw) : (drawing d).target.nextAnswer = (some d, s.target.setScript s.target.script) := rfl
  refine ⟨fun r bytes => ⟨_, busWrite_nackAddr (hnext _) _ r bytes, hfill _ hkind⟩,
    fun r bytes k hk => ⟨_, busWrite_nackByte (hnext _) _ r hk, hfill _ hkind⟩,
    fun r n => ⟨_, busRead_nackAddr (hnext _) _ r n, hfill _ hkind⟩,
    fun r n k => ⟨_, busRead_nackByte (hnext _) _ r n, hfill _ hkind⟩,
    fun r n bytes hn => ⟨_, busRead_short (hnext _) _ r hn, hfill _ hkind⟩, fun i c hb hi hc hat ha => ⟨_, rfl, ?_⟩⟩
  have hcut := hostReset_target_of_atTransaction hb hi hc hat left
  rw [busAddress_eq_devAddr ha] at hcut
  show (hostReset left s).target.Holds regs regs1 ptr
  rw [hcut]
  exact hfill _ hkind

end Sys2Proof.Machine
end

section
/-! SUPPORT. `SelectBank` (41_bank_identity.md R150): the byte it writes and its two transactions by their answers. -/

namespace Sys2Proof.Machine

/-! The byte that selects a bank. -/

theorem bankByte_zero (p : Params) (v : Byte) : bankByte p v 0 = v &&& ~~~(1#8 <<< p.bankBit.val) := by
  simp [bankByte, rmwByte, bitMask]

theorem bankByte_one (p : Params) (v : Byte) :
    bankByte p v 1 = (v &&& ~~~(1#8 <<< p.bankBit.val)) ||| (1#8 <<< p.bankBit.val) := rfl

/-- The bank bit of the byte is the bank selected. -/
theorem bankByte_getLsbD (p : Params) (v : Byte) (b : BitVec 1) :
    (bankByte p v b).getLsbD p.bankBit.val = b.getLsbD 0 := by
  have hbit : p.bankBit.val < 8 := p.bankBit.isLt
  simp [bankByte, rmwByte, bitMask, hbit]

/-- The reference target is in the bank whose byte was stored to its bank register (20_memory.md R76, R77). -/
theorem Target.absorb_bankByte_inBank1 {p : Params} {t : Target} (hkind : t.kind = .reference)
    (hcfg : 0x80 ≤ p.cfg0Reg.toNat) (v : Byte) (b : BitVec 1) :
    (t.absorb p p.devAddr p.cfg0Reg [bankByte p v b]).inBank1 p = b.getLsbD 0 := by
  have htop : p.cfg0Reg.toNat + [bankByte p v b].length ≤ 256 := p.cfg0Reg.isLt
  obtain ⟨hstored, -⟩ := Target.storeBurst_reg p t htop (k := 0) Nat.one_pos rfl
  obtain ⟨hreg, -⟩ := hstored hcfg
  rw [Target.absorb, if_pos (by simp [Target.isDevice, hkind]), Target.inBank1, hreg]
  exact bankByte_getLsbD p v b

/-! Its transactions. -/

/-- `STATUS` after an update of the mirror that follows a transaction, which keeps `STATUS`. -/
theorem setMirror_status_of_same {s s' : State} (h : s'.status = s.status) (m : BitVec 2) :
    (setMirror m s').status = s.status.setBank m := congrArg (fun x : Status => x.setBank m) h

section Transactions

variable {s s' : State} {c : Ctx} {b : BitVec 1}

theorem tryBankWrite_acked {k : ErrCode → State → State}
    (h : busWrite s.params.devAddr s.params.cfg0Reg [bankByte s.params c.v b] s = some (.ack, s')) :
    tryBankWrite b c s k = .next (k .none (setMirror (bankMirror b) s')) :=
  onWrite_answered h

theorem tryBankWrite_failed {o : WriteOutcome} {k : ErrCode → State → State}
    (h : busWrite s.params.devAddr s.params.cfg0Reg [bankByte s.params c.v b] s = some (o, s')) (ho : o ≠ .ack) :
    tryBankWrite b c s k = .next (k .nack (setMirror bankUnknown s')) :=
  (onWrite_answered h).trans (congrArg _ (if_neg ho))

/-- A segment that is transaction 2 of `SelectBank(b)`, with an ending that leaves the target, the counters and the mirror. -/
theorem selectsBankThen_of_selectBankWrite {i : Instr} {after : State → Prop} {k : State → State}
    (h : exec i s = selectBankWrite b c s k) (hk : ∀ u, AfterTransaction u (k u) ∧ (k u).status.bank = u.status.bank)
    (hafter : ∀ u, u.status = s.status.setBank (bankMirror b) → u.cmd = s.cmd → after (k u)) :
    SelectsBankThen i b c.v s after := by
  intro o s' hwrite
  obtain ⟨hstatus, -, -, ⟨hcmd, -⟩, -⟩ := busWrite_same hwrite
  by_cases ho : o = .ack
  · subst ho
    obtain ⟨htx, hbank⟩ := hk (setMirror (bankMirror b) s')
    exact ⟨_, h.trans (tryBankWrite_acked hwrite), htx,
      fun _ => ⟨hafter _ (setMirror_status_of_same hstatus _) hcmd, hbank⟩, fun h => absurd rfl h⟩
  · exact ⟨_, h.trans (tryBankWrite_failed hwrite ho), ⟨rfl, rfl⟩, fun h => absurd h ho,
      fun _ => ⟨completes_fail hcmd .nack, rfl⟩⟩

/-! `SET_BANK`. -/

theorem execSetBank_start (hc : s.ctx = some c) (hseg : c.seg = .start) :
    exec .setBank s = rmwRead s.params.cfg0Reg .bankWrite c s := by
  simp only [exec, execSetBank, inCommand_some hc, hseg, selectBankRead]

theorem execSetBank_bankWrite (hc : s.ctx = some c) (hseg : c.seg = .bankWrite) :
    exec .setBank s = selectBankWrite (argBank s.arg) c s succeed := by
  simp only [exec, execSetBank, inCommand_some hc, hseg]

end Transactions

end Sys2Proof.Machine
end

section
/-! SUPPORT. `IS_CONNECTED` (41_bank_identity.md R153), one equation per position and outcome of its transaction. -/

namespace Sys2Proof.Machine

/-- The two ways a one-byte read can be answered (40_bus_adapter.md R131). -/
theorem busRead_one_cases {a : BitVec 7} {r : BitVec 8} {s s' : State} {code : ErrCode} {bytes : List Byte}
    (h : busRead a r 1 s = some ((code, bytes), s')) : (code = .none ∧ ∃ v, bytes = [v]) ∨ code ≠ .none := by
  by_cases hcode : code = .none
  · subst hcode
    exact .inl ⟨rfl, List.length_eq_one_iff.mp (busRead_length h)⟩
  · exact .inr hcode

/-! The end: `E` keeps the first failure. -/

/-- Where the switch back succeeds, `IS_CONNECTED` completes with `E`. -/
theorem finishIdentity_none (c : Ctx) (s : State) : finishIdentity c .none s = complete (decide (c.e = 0)) c.e s := by
  unfold finishIdentity
  split
  · next he => rw [he]; rfl
  · rfl

theorem ErrCode.code_ne_zero {code : ErrCode} (h : code ≠ .none) : code.code ≠ 0 := by
  cases code with
  | none => exact absurd rfl h
  | _ => decide

/-- Where the switch back fails, `IS_CONNECTED` fails with `E`, or with the code of the switch back if `E` is `NONE`. -/
theorem finishIdentity_failed (c : Ctx) (s : State) {code : ErrCode} (hcode : code ≠ .none) :
    finishIdentity c code s = complete false (if c.e = 0 then code.code else c.e) s := by
  have hne : (if c.e = 0 then code.code else c.e) ≠ 0 := by
    split
    · exact ErrCode.code_ne_zero hcode
    · assumption
  exact congrArg (complete · _ s) (decide_eq_false hne)

/-! The positions. -/

section Positions

variable {s s' : State} {c : Ctx} {v : Byte} {code : ErrCode} {bytes : List Byte} {o : WriteOutcome}

theorem execIsConnected_start_read (hc : s.ctx = some c) (hseg : c.seg = .start)
    (h : busRead s.params.devAddr s.params.cfg0Reg 1 s = some ((.none, [v]), s')) :
    exec .isConnected s = .next (resume { c with seg := .bankWrite, e := ErrCode.none.code, v := v } s') := by
  simp only [exec, execIsConnected, inCommand_some hc, hseg]
  exact onRead_answered h

theorem execIsConnected_start_failed (hc : s.ctx = some c) (hseg : c.seg = .start)
    (h : busRead s.params.devAddr s.params.cfg0Reg 1 s = some ((code, bytes), s')) (hcode : code ≠ .none) :
    exec .isConnected s = .next (resume { c with seg := .backRead, e := code.code } s') := by
  simp only [exec, execIsConnected, inCommand_some hc, hseg]
  exact (onRead_answered h).trans (congrArg _ (if_neg hcode))

theorem execIsConnected_bankWrite_acked (hc : s.ctx = some c) (hseg : c.seg = .bankWrite)
    (h : busWrite s.params.devAddr s.params.cfg0Reg [bankByte s.params c.v 1] s = some (.ack, s')) :
    exec .isConnected s = .next (resume { c with seg := .idRead } (setMirror 0b01 s')) := by
  simp only [exec, execIsConnected, inCommand_some hc, hseg]
  exact tryBankWrite_acked h

theorem execIsConnected_bankWrite_failed (hc : s.ctx = some c) (hseg : c.seg = .bankWrite)
    (h : busWrite s.params.devAddr s.params.cfg0Reg [bankByte s.params c.v 1] s = some (o, s')) (ho : o ≠ .ack) :
    exec .isConnected s = .next (resume { c with seg := .backRead, e := ErrCode.nack.code } (setMirror bankUnknown s')) := by
  simp only [exec, execIsConnected, inCommand_some hc, hseg]
  exact tryBankWrite_failed h ho

theorem execIsConnected_idRead_read (hc : s.ctx = some c) (hseg : c.seg = .idRead)
    (h : busRead s.params.devAddr s.params.idReg 1 s = some ((.none, [v]), s')) :
    exec .isConnected s = .next (resume { c with seg := .backRead, e := identityVerdict s.params c.e v }
      (s'.setResult (s'.result.setIdValue v))) := by
  simp only [exec, execIsConnected, inCommand_some hc, hseg]
  exact onRead_answered h

theorem execIsConnected_idRead_failed (hc : s.ctx = some c) (hseg : c.seg = .idRead)
    (h : busRead s.params.devAddr s.params.idReg 1 s = some ((code, bytes), s')) (hcode : code ≠ .none) :
    exec .isConnected s = .next (resume { c with seg := .backRead, e := code.code } s') := by
  simp only [exec, execIsConnected, inCommand_some hc, hseg]
  exact (onRead_answered h).trans (congrArg _ (if_neg hcode))

theorem execIsConnected_backRead_read (hc : s.ctx = some c) (hseg : c.seg = .backRead)
    (h : busRead s.params.devAddr s.params.cfg0Reg 1 s = some ((.none, [v]), s')) :
    exec .isConnected s = .next (resume { c with seg := .backWrite, v := v } s') := by
  simp only [exec, execIsConnected, inCommand_some hc, hseg]
  exact onRead_answered h

theorem execIsConnected_backRead_failed (hc : s.ctx = some c) (hseg : c.seg = .backRead)
    (h : busRead s.params.devAddr s.params.cfg0Reg 1 s = some ((code, bytes), s')) (hcode : code ≠ .none) :
    exec .isConnected s = .next (complete false (if c.e = 0 then code.code else c.e) s') := by
  rw [← finishIdentity_failed c s' hcode]
  simp only [exec, execIsConnected, inCommand_some hc, hseg]
  exact (onRead_answered h).trans (congrArg _ (if_neg hcode))

theorem execIsConnected_backWrite_acked (hc : s.ctx = some c) (hseg : c.seg = .backWrite)
    (h : busWrite s.params.devAddr s.params.cfg0Reg [bankByte s.params c.v 0] s = some (.ack, s')) :
    exec .isConnected s = .next (complete (decide (c.e = 0)) c.e (setMirror 0b00 s')) := by
  rw [← finishIdentity_none]
  simp only [exec, execIsConnected, inCommand_some hc, hseg]
  exact tryBankWrite_acked h

theorem execIsConnected_backWrite_failed (hc : s.ctx = some c) (hseg : c.seg = .backWrite)
    (h : busWrite s.params.devAddr s.params.cfg0Reg [bankByte s.params c.v 0] s = some (o, s')) (ho : o ≠ .ack) :
    exec .isConnected s
      = .next (complete false (if c.e = 0 then ErrCode.nack.code else c.e) (setMirror bankUnknown s')) := by
  rw [← finishIdentity_failed c _ (code := .nack) nofun]
  simp only [exec, execIsConnected, inCommand_some hc, hseg]
  exact tryBankWrite_failed h ho

end Positions

end Sys2Proof.Machine
end

section
/-! SUPPORT. The obligations of 41_bank_identity.md about single segments. -/

namespace Sys2Proof.Machine

/-- Settles O30: the two positions of `SET_BANK` are the two transactions of `SelectBank`. -/
theorem setBankSelectsArgBit : Obligations.SetBankSelectsArgBit := by
  unfold Obligations.SetBankSelectsArgBit
  intro s c hc
  refine ⟨fun hseg => readsByteThen_of_rmwRead (execSetBank_start hc hseg), fun hseg => ?_⟩
  exact selectsBankThen_of_selectBankWrite (execSetBank_bankWrite hc hseg) (fun _ => ⟨⟨rfl, rfl⟩, rfl⟩)
    fun _ _ hcmd => completes_succeed hcmd

/-- Settles O31, one position at a time by the outcome of its transaction. -/
theorem isConnectedKeepsFirstFailure : Obligations.IsConnectedKeepsFirstFailure := by
  unfold Obligations.IsConnectedKeepsFirstFailure
  intro s c hc
  refine ⟨fun hseg code bytes s' hread => ?start, fun hseg o s' hwrite => ?bankWrite,
    fun hseg code bytes s' hread => ?idRead, fun hseg code bytes s' hread => ?backRead, fun hseg o s' hwrite => ?backWrite⟩
  case start =>
    obtain ⟨hstatus, -⟩ := busRead_same hread
    obtain ⟨rfl, v, rfl⟩ | hcode := busRead_one_cases hread
    · exact ⟨_, _, execIsConnected_start_read hc hseg hread, ⟨rfl, rfl⟩, hstatus, rfl, rfl, fun _ => ⟨rfl, rfl⟩,
        fun h => absurd rfl h⟩
    · exact ⟨_, _, execIsConnected_start_failed hc hseg hread hcode, ⟨rfl, rfl⟩, hstatus, rfl, rfl,
        fun h => absurd h hcode, fun _ => rfl⟩
  case bankWrite =>
    obtain ⟨hstatus, -⟩ := busWrite_same hwrite
    rw [← bankByte_one] at hwrite
    by_cases ho : o = .ack
    · subst ho
      exact ⟨_, _, execIsConnected_bankWrite_acked hc hseg hwrite, ⟨rfl, rfl⟩, rfl,
        fun _ => ⟨⟨setMirror_status_of_same hstatus _, _, rfl, rfl⟩, rfl, rfl⟩, fun h => absurd rfl h⟩
    · exact ⟨_, _, execIsConnected_bankWrite_failed hc hseg hwrite ho, ⟨rfl, rfl⟩, rfl, fun h => absurd h ho,
        fun _ => ⟨⟨setMirror_status_of_same hstatus _, _, rfl, rfl⟩, rfl, rfl⟩⟩
  case idRead =>
    obtain ⟨hstatus, -⟩ := busRead_same hread
    obtain ⟨rfl, v, rfl⟩ | hcode := busRead_one_cases hread
    · exact ⟨_, _, execIsConnected_idRead_read hc hseg hread, rfl, hstatus, rfl, rfl, fun _ => ⟨rfl, rfl, rfl⟩,
        fun h => absurd rfl h⟩
    · exact ⟨_, _, execIsConnected_idRead_failed hc hseg hread hcode, rfl, hstatus, rfl, rfl, fun h => absurd h hcode,
        fun _ => ⟨rfl, rfl⟩⟩
  case backRead =>
    obtain ⟨hstatus, -⟩ := busRead_same hread
    have hbank : s'.status.bank = s.status.bank := congrArg Status.bank hstatus
    obtain ⟨rfl, v, rfl⟩ | hcode := busRead_one_cases hread
    · exact ⟨_, execIsConnected_backRead_read hc hseg hread, ⟨rfl, rfl⟩, hbank,
        fun _ => ⟨⟨hstatus, _, rfl, rfl⟩, _, rfl, rfl, rfl⟩, fun h => absurd rfl h⟩
    · exact ⟨_, execIsConnected_backRead_failed hc hseg hread hcode, ⟨rfl, rfl⟩, hbank, fun h => absurd h hcode,
        fun _ => ⟨rfl, rfl, rfl, rfl, rfl⟩⟩
  case backWrite =>
    rw [← bankByte_zero] at hwrite
    by_cases ho : o = .ack
    · subst ho
      exact ⟨_, execIsConnected_backWrite_acked hc hseg hwrite, ⟨rfl, rfl⟩, rfl, rfl, rfl, fun _ => ⟨rfl, rfl, rfl⟩,
        fun h => absurd rfl h⟩
    · exact ⟨_, execIsConnected_backWrite_failed hc hseg hwrite ho, ⟨rfl, rfl⟩, rfl, rfl, rfl, fun h => absurd h ho,
        fun _ => ⟨rfl, rfl, rfl⟩⟩

end Sys2Proof.Machine
end

section
/-! SUPPORT. A command run turn by turn on answers that a script fixes: what a transaction takes from the script, and where the
run stands after each turn. -/

namespace Sys2Proof.Machine

/-! What a transaction takes from the script. -/

theorem Target.nextAnswer_scripted {t : Target} {d : Draw} {answers : List (Option Draw)}
    (h : t.script = some d :: answers) : t.nextAnswer = (some d, t.setScript answers) := by
  simp [Target.nextAnswer, h]

theorem Target.storeAll_script (p : Params) (xs : List (BitVec 8 × Byte)) :
    ∀ t : Target, (t.storeAll p xs).script = t.script := by
  induction xs with
  | nil => intro t; rfl
  | cons x xs ih => intro t; exact (ih _).trans (Target.storeReg_kind p x.1 x.2 t).2

/-- What a failed transaction leaves keeps the kind of the target and the script. -/
theorem Target.disturb_kind (p : Params) (a : BitVec 7) (left : Leftover) (t : Target) :
    (t.disturb p a left).kind = t.kind ∧ (t.disturb p a left).script = t.script := by
  unfold Target.disturb
  split
  · exact ⟨Target.storeAll_kind p left.stores t, Target.storeAll_script p left.stores t⟩
  · exact ⟨rfl, rfl⟩

theorem Target.read_scripted {t t' : Target} {p : Params} {a : BitVec 7} {r : BitVec 8} {n : Nat} {o : PointerOutcome}
    {bytes : List Byte} {d : Draw} {answers : List (Option Draw)} (h : t.script = some d :: answers)
    (hr : t.read p a r n = some (o, bytes, t')) : t'.kind = t.kind ∧ t'.script = answers := by
  rw [Target.read, Target.nextAnswer_scripted h] at hr
  cases d with
  | silent => cases hr
  | ok => cases hr; exact ⟨rfl, rfl⟩
  | nackAddr left | nackByte _ left | short _ left => cases hr; exact Target.disturb_kind p a left (t.setScript answers)

/-- An answered read takes one entry of the script and is counted. -/
theorem busRead_takes {a : BitVec 7} {r : BitVec 8} {n : Nat} {s s' : State} {x : ErrCode × List Byte} {d : Draw}
    {answers : List (Option Draw)} (h : s.target.script = some d :: answers) (hr : busRead a r n s = some (x, s')) :
    s'.target.kind = s.target.kind ∧ s'.target.script = answers ∧ s'.result.txcount = countUp s.result.txcount := by
  obtain ⟨o, bs, t, hread, hcase⟩ := busRead_spec (code := x.1) (bytes := x.2) hr
  obtain ⟨hkind, hscript⟩ := Target.read_scripted h hread
  obtain ⟨-, -, -, rfl⟩ | ⟨-, -, -, rfl⟩ := hcase
  · exact ⟨hkind, hscript, rfl⟩
  · exact ⟨hkind, hscript, rfl⟩

/-! Where a run stands. -/

/-- A run that began at `s₀` stands at position `c` of command `i`: the target has the answers `answers` to come and `CTRL` moves
as `turns` says, `TXCOUNT` is `count` and `ID` is `id`. -/
structure RunAt (i : Instr) (s₀ : State) (c : Ctx) (count : BitVec 16) (id : Byte) (answers : List (Option Draw))
    (turns : List Event) (s : State) : Prop where
  busy : s.status.busy = true
  cmd : decode s.cmd = .ok i
  ctx : s.ctx = some c
  count : s.result.txcount = count
  id : s.result.idValue = id
  script : s.target.script = answers
  turns : s.agenda = turns
  kind : s.target.kind = s₀.target.kind
  params : s.params = s₀.params

namespace RunAt

variable {i : Instr} {s₀ s s' : State} {c : Ctx} {count : BitVec 16} {id : Byte} {d : Draw}
  {answers : List (Option Draw)} {turns : List Event}

/-- The next turn is `CTRL`'s: it runs one segment of the command. -/
theorem step_eq (h : RunAt i s₀ c count id answers (.ctrl :: turns) s) :
    step s = exec i (s.setAgenda turns) ∧ RunAt i s₀ c count id answers turns (s.setAgenda turns) :=
  ⟨(step_of_agenda h.turns).trans (ctrlTurn_legal (s := s.setAgenda turns) h.busy h.cmd), { h with turns := rfl }⟩

theorem resumed (h : RunAt i s₀ c count id answers turns s) (c' : Ctx) :
    RunAt i s₀ c' count id answers turns (resume c' s) := { h with ctx := rfl }

theorem mirrored (h : RunAt i s₀ c count id answers turns s) (m : BitVec 2) :
    RunAt i s₀ c count id answers turns (setMirror m s) := { h with }

theorem identified (h : RunAt i s₀ c count id answers turns s) (v : Byte) :
    RunAt i s₀ c count v answers turns (s.setResult (s.result.setIdValue v)) := { h with id := rfl }

/-- A run after a transaction that took the next answer. -/
theorem transacted (h : RunAt i s₀ c count id (some d :: answers) turns s) (honly : BusOnly s s')
    (hkind : s'.target.kind = s.target.kind) (hscript : s'.target.script = answers)
    (hcount : s'.result.txcount = countUp s.result.txcount) : RunAt i s₀ c (countUp count) id answers turns s' := by
  obtain ⟨r, t, rfl, hid⟩ := honly
  exact { h with
    count := hcount.trans (congrArg countUp h.count)
    id := hid.trans h.id
    script := hscript
    kind := hkind.trans h.kind }

/-- A read of the run, however it is answered. -/
theorem afterRead (h : RunAt i s₀ c count id (some d :: answers) turns s) {a : BitVec 7} {r : BitVec 8} {n : Nat}
    {x : ErrCode × List Byte} (hr : busRead a r n s = some (x, s')) : RunAt i s₀ c (countUp count) id answers turns s' := by
  obtain ⟨hkind, hscript, hcount⟩ := busRead_takes h.script hr
  exact h.transacted (busRead_only hr) hkind hscript hcount

/-- An acknowledged write of the run stores its bytes in the device. -/
theorem write_acked {b : List Byte} (h : RunAt i s₀ c count id (some (.ok b) :: answers) turns s) (r : BitVec 8)
    (bytes : List Byte) : ∃ s', busWrite s.params.devAddr r bytes s = some (.ack, s')
      ∧ RunAt i s₀ c (countUp count) id answers turns s'
      ∧ s'.target = (s.target.setScript answers).absorb s.params s.params.devAddr r bytes := by
  have hw := busWrite_scripted (a := s.params.devAddr) (r := r) (bytes := bytes) h.script
  obtain ⟨hkind, hscript⟩ := Target.absorb_kind s.params s.params.devAddr r bytes (s.target.setScript answers)
  exact ⟨_, hw, h.transacted (busWrite_only hw) hkind hscript rfl, rfl⟩

/-- A one-byte read of the run that is answered in full. -/
theorem read_byte {v : Byte} (h : RunAt i s₀ c count id (some (.ok [v]) :: answers) turns s) (r : BitVec 8) :
    ∃ s', busRead s.params.devAddr r 1 s = some ((.none, [v]), s') ∧ RunAt i s₀ c (countUp count) id answers turns s' :=
  ⟨_, busRead_scripted h.script, h.afterRead (busRead_scripted h.script)⟩

end RunAt

end Sys2Proof.Machine
end

section
/-! SUPPORT. A whole `IS_CONNECTED` (41_bank_identity.md R153, R154), turn by turn. -/

namespace Sys2Proof.Machine

/-- `ID` and `E` after the identity read that a draw answers, from what they held before it (41_bank_identity.md R153). -/
def identityOutcome (p : Params) (id : Byte) (e : BitVec 4) : Draw → Byte × BitVec 4
  | .ok (v :: _) => (v, identityVerdict p e v)
  | .ok [] => (id, ErrCode.short.code)
  | .short _ _ => (id, ErrCode.short.code)
  | .nackAddr _ => (id, ErrCode.nack.code)
  | .nackByte _ _ => (id, ErrCode.nack.code)
  | .silent => (id, e)

/-- The end of an `IS_CONNECTED` that began at `s₀` and whose switch back succeeded: the verdict `e`, and bank 0 in the mirror and
in the reference target (41_bank_identity.md R153, R154). -/
structure EndsInBankZero (s₀ : State) (count : BitVec 16) (id : Byte) (e : BitVec 4) (answers : List (Option Draw))
    (turns : List Event) (t : State) : Prop where
  busy : t.status.busy = false
  done : t.status.done = true
  ctx : t.ctx = none
  turns : t.agenda = turns
  mirror : t.status.bank = 0b00
  count : t.result.txcount = count
  script : t.target.script = answers
  device : s₀.target.kind = .reference → 0x80 ≤ s₀.params.cfg0Reg.toNat → t.target.inBank1 s₀.params = false
  ok : t.status.ok = decide (e = 0)
  err : t.status.err = e
  id : t.result.idValue = id

namespace RunAt

variable {s₀ s : State} {c : Ctx} {count : BitVec 16} {id v : Byte} {b : List Byte} {d : Draw}
  {answers : List (Option Draw)} {turns : List Event}

theorem isConnected_start (h : RunAt .isConnected s₀ c count id (some (.ok [v]) :: answers) (.ctrl :: turns) s)
    (hseg : c.seg = .start) : ∃ t, step s = .next t
      ∧ RunAt .isConnected s₀ { c with seg := .bankWrite, e := 0, v := v } (countUp count) id answers turns t := by
  obtain ⟨hstep, hrun⟩ := h.step_eq
  obtain ⟨s', hread, hafter⟩ := hrun.read_byte s.params.cfg0Reg
  exact ⟨_, hstep.trans (execIsConnected_start_read hrun.ctx hseg hread), hafter.resumed _⟩

theorem isConnected_bankWrite (h : RunAt .isConnected s₀ c count id (some (.ok b) :: answers) (.ctrl :: turns) s)
    (hseg : c.seg = .bankWrite) : ∃ t, step s = .next t
      ∧ RunAt .isConnected s₀ { c with seg := .idRead } (countUp count) id answers turns t := by
  obtain ⟨hstep, hrun⟩ := h.step_eq
  obtain ⟨s', hwrite, hafter, -⟩ := hrun.write_acked s.params.cfg0Reg [bankByte s.params c.v 1]
  exact ⟨_, hstep.trans (execIsConnected_bankWrite_acked hrun.ctx hseg hwrite), (hafter.mirrored _).resumed _⟩

/-- The identity read fails: `E` is its code and `ID` is kept. -/
theorem isConnected_idRead_failed (h : RunAt .isConnected s₀ c count id (some d :: answers) (.ctrl :: turns) s)
    (hseg : c.seg = .idRead) {code : ErrCode} {bytes : List Byte} {s' : State}
    (hread : busRead s.params.devAddr s.params.idReg 1 (s.setAgenda turns) = some ((code, bytes), s'))
    (hcode : code ≠ .none) :
    ∃ t, step s = .next t
      ∧ RunAt .isConnected s₀ { c with seg := .backRead, e := code.code } (countUp count) id answers turns t := by
  obtain ⟨hstep, hrun⟩ := h.step_eq
  exact ⟨_, hstep.trans (execIsConnected_idRead_failed hrun.ctx hseg hread hcode), (hrun.afterRead hread).resumed _⟩

/-- The identity read, by the draw that answers it. -/
theorem isConnected_idRead (h : RunAt .isConnected s₀ c count id (some d :: answers) (.ctrl :: turns) s)
    (hseg : c.seg = .idRead) (hd : d ≠ .silent) : ∃ t, step s = .next t
      ∧ RunAt .isConnected s₀ { c with seg := .backRead, e := (identityOutcome s₀.params id c.e d).2 } (countUp count)
        (identityOutcome s₀.params id c.e d).1 answers turns t := by
  obtain ⟨hstep, hrun⟩ := h.step_eq
  have hnext := Target.nextAnswer_scripted hrun.script
  cases d with
  | silent => exact absurd rfl hd
  | nackAddr left => exact h.isConnected_idRead_failed hseg (busRead_nackAddr hnext _ _ _) nofun
  | nackByte k left => exact h.isConnected_idRead_failed hseg (busRead_nackByte hnext _ _ _) nofun
  | short bytes left => exact h.isConnected_idRead_failed hseg (busRead_short hnext _ _ le_rfl) nofun
  | ok bytes =>
    have hread := busRead_ok hnext s.params.devAddr s.params.idReg 1
    cases bytes with
    | nil => exact h.isConnected_idRead_failed hseg hread nofun
    | cons x xs =>
      rw [← h.params]
      exact ⟨_, hstep.trans (execIsConnected_idRead_read hrun.ctx hseg hread),
        ((hrun.afterRead hread).identified x).resumed _⟩

theorem isConnected_backRead (h : RunAt .isConnected s₀ c count id (some (.ok [v]) :: answers) (.ctrl :: turns) s)
    (hseg : c.seg = .backRead) : ∃ t, step s = .next t
      ∧ RunAt .isConnected s₀ { c with seg := .backWrite, v := v } (countUp count) id answers turns t := by
  obtain ⟨hstep, hrun⟩ := h.step_eq
  obtain ⟨s', hread, hafter⟩ := hrun.read_byte s.params.cfg0Reg
  exact ⟨_, hstep.trans (execIsConnected_backRead_read hrun.ctx hseg hread), hafter.resumed _⟩

/-- The last transaction puts bank 0 into the mirror and into the reference target. -/
theorem isConnected_backWrite (h : RunAt .isConnected s₀ c count id (some (.ok b) :: answers) (.ctrl :: turns) s)
    (hseg : c.seg = .backWrite) :
    ∃ t, step s = .next t ∧ EndsInBankZero s₀ (countUp count) id c.e answers turns t := by
  obtain ⟨hstep, hrun⟩ := h.step_eq
  obtain ⟨s', hwrite, hafter, htarget⟩ := hrun.write_acked s.params.cfg0Reg [bankByte s.params c.v 0]
  refine ⟨_, hstep.trans (execIsConnected_backWrite_acked hrun.ctx hseg hwrite), ?_⟩
  exact {
    busy := rfl, done := rfl, ctx := rfl, mirror := rfl, ok := rfl, err := rfl
    turns := hafter.turns
    count := hafter.count
    script := hafter.script
    id := hafter.id
    device := fun hkind hcfg => by
      show s'.target.inBank1 s₀.params = false
      rw [← h.params] at hcfg ⊢
      rw [htarget]
      exact Target.absorb_bankByte_inBank1 (t := s.target.setScript answers) (h.kind.trans hkind) hcfg c.v 0 }

end RunAt

/-- A whole `IS_CONNECTED` whose bank-select transactions all succeed, by the answer to the identity read. -/
theorem isConnected_run {s : State} {v0 v1 : Byte} {b1 b2 : List Byte} {d : Draw} {answers : List (Option Draw)}
    {turns : List Event} {count : BitVec 16} {id : Byte} (hd : d ≠ .silent)
    (h : RunAt .isConnected s Ctx.fresh count id
      (some (.ok [v0]) :: some (.ok b1) :: some d :: some (.ok [v1]) :: some (.ok b2) :: answers)
      (List.replicate 5 .ctrl ++ turns) s) :
    ∃ t, runSteps 5 s = .next t
      ∧ EndsInBankZero s (countUp (countUp (countUp (countUp (countUp count))))) (identityOutcome s.params id 0 d).1
        (identityOutcome s.params id 0 d).2 answers turns t := by
  obtain ⟨s1, hstep1, h1⟩ := h.isConnected_start rfl
  obtain ⟨s2, hstep2, h2⟩ := h1.isConnected_bankWrite rfl
  obtain ⟨s3, hstep3, h3⟩ := h2.isConnected_idRead rfl hd
  obtain ⟨s4, hstep4, h4⟩ := h3.isConnected_backRead rfl
  obtain ⟨t, hstep5, hend⟩ := h4.isConnected_backWrite rfl
  refine ⟨t, ?_, hend⟩
  rw [runSteps_succ 4 hstep1, runSteps_succ 3 hstep2, runSteps_succ 2 hstep3, runSteps_succ 1 hstep4,
    runSteps_succ 0 hstep5, runSteps_zero]

/-- Settles O32: the run of five turns, and the verdict by the answer to the identity read. -/
theorem isConnectedAlwaysRestoresBankZero : Obligations.IsConnectedAlwaysRestoresBankZero := by
  unfold Obligations.IsConnectedAlwaysRestoresBankZero
  intro s v0 v1 b1 b2 d more rest hbusy hcmd hctx hcount hturns hd hscript
  have hrun : RunAt .isConnected s Ctx.fresh 0 s.result.idValue _ _ s :=
    { busy := hbusy, cmd := hcmd, ctx := hctx, count := hcount, id := rfl, script := hscript, turns := hturns,
      kind := rfl, params := rfl }
  obtain ⟨t, hsteps, hend⟩ := isConnected_run hd hrun
  refine ⟨t, hsteps, hend.busy, hend.done, hend.ctx, hend.turns, hend.mirror, hend.count, hend.script, hend.device, ?_⟩
  have hok := hend.ok
  have herr := hend.err
  have hid := hend.id
  refine ⟨?matched, ?empty, ?short, ?refused⟩
  case matched =>
    rintro x xs rfl
    refine ⟨hid, hok.trans ?_, herr⟩
    by_cases hx : x = s.params.expectedId
    · simp [identityOutcome, identityVerdict, hx]
    · simp [identityOutcome, identityVerdict, hx, ErrCode.code]
  case empty =>
    rintro rfl
    exact ⟨hok, herr, hid⟩
  case short =>
    rintro bs left rfl
    exact ⟨hok, herr, hid⟩
  case refused =>
    intro hnotOk hnotShort
    cases d with
    | silent => exact absurd rfl hd
    | ok bs => exact absurd rfl (hnotOk bs)
    | short bs left => exact absurd rfl (hnotShort bs left)
    | nackAddr left | nackByte k left => exact ⟨hok, herr, hid⟩

end Sys2Proof.Machine
end

section
/-! SUPPORT. `INIT`, `SET_ITIME` and `SET_TIMEOUT` (42_configuration.md R165, R166, R170, R172), one equation per position, with
the bytes that they write and the ways their segments end. -/

namespace Sys2Proof.Machine

/-! The bytes that are written. -/

/-- A read-modify-write that clears nothing only sets bits (40_bus_adapter.md R134). -/
theorem rmwByte_zero (v set : Byte) : rmwByte v 0 set = v ||| set :=
  congrArg (· ||| set) BitVec.and_allOnes

/-- The low byte of `ASTEP` is `ARG[15:8]` (30_encoding.md R104). -/
theorem lowByte_argAstep (arg : Word) : lowByte (argAstep arg) = arg.extractLsb' 8 8 := by
  refine BitVec.eq_of_getLsbD_eq fun k hk => ?_
  have hhalf : k < 16 := by omega
  simp [lowByte, argAstep, hhalf]

/-- The high byte of `ASTEP` is `ARG[23:16]` (30_encoding.md R104). -/
theorem highByte_argAstep (arg : Word) : highByte (argAstep arg) = arg.extractLsb' 16 8 := by
  refine BitVec.eq_of_getLsbD_eq fun k hk => ?_
  have hhalf : 8 + k < 16 := by omega
  simp [highByte, argAstep, hhalf, ← Nat.add_assoc]

/-- The byte that sets the gain field holds the code in its low 5 bits and keeps the other 3 (42_configuration.md R168, R169). -/
theorem rmwByte_gainMask_fields (v : Byte) (g : BitVec 5) :
    (rmwByte v gainMask (g.zeroExtend 8)).extractLsb' 0 5 = g
      ∧ (rmwByte v gainMask (g.zeroExtend 8)).extractLsb' 5 3 = v.extractLsb' 5 3 := by
  have hlow : ∀ k (_ : k < 5), gainMask[k] = true := by decide
  have hhigh : ∀ k (_ : k < 3), gainMask[5 + k] = false := by decide
  constructor
  · refine BitVec.eq_of_getLsbD_eq fun k hk => ?_
    have hbyte : k < 8 := by omega
    simp [rmwByte, hk, hbyte, hlow k hk]
  · refine BitVec.eq_of_getLsbD_eq fun k hk => ?_
    have hbyte : 5 + k < 8 := by omega
    simp [rmwByte, hk, hbyte, hhigh k hk]

/-! How the segments end. -/

section Endings

variable {i : Instr} {s : State} {c : Ctx} {r : BitVec 8} {v : Byte}

/-- A one-byte write after which the command goes on. -/
theorem writesByteThen_of_wr_resume {c' : Ctx} {seg : Seg} (h : exec i s = wr r [v] s (resume c')) (hseg : c'.seg = seg) :
    WritesByteThen i r v s (GoesOn seg s) :=
  writesByteThen_of_wr h (fun _ => ⟨⟨rfl, rfl⟩, rfl⟩) fun _ hstatus _ => ⟨hstatus, c', rfl, hseg⟩

/-- A one-byte write that is the last of its command. -/
theorem writesByteThen_of_wr_succeed (h : exec i s = wr r [v] s succeed) : WritesByteThen i r v s (Completes true .none s) :=
  writesByteThen_of_wr h (fun _ => ⟨⟨rfl, rfl⟩, rfl⟩) fun _ _ hcmd => completes_succeed hcmd

/-- A bank selection after which the command goes on (41_bank_identity.md R150). -/
theorem selectsBankThen_of_selectBankWrite_resume {b : BitVec 1} {c' : Ctx} {seg : Seg}
    (h : exec i s = selectBankWrite b c s (resume c')) (hseg : c'.seg = seg) :
    SelectsBankThen i b c.v s (GoesOnMirrored seg s) := by
  refine selectsBankThen_of_selectBankWrite h (fun _ => ⟨⟨rfl, rfl⟩, rfl⟩) fun u hstatus _ => ⟨?_, c', rfl, hseg⟩
  rw [resume_status, hstatus]
  rfl

/-- A segment that is `T0 <- Now()` (42_configuration.md R165). -/
theorem latchesTimeThen_of_latchNow {seg : Seg} (h : exec i s = latchNow seg c s) : LatchesTimeThen i seg s :=
  ⟨_, h, ⟨rfl, rfl⟩, ⟨rfl, _, rfl, rfl⟩, _, rfl, rfl⟩

/-- The loop of `DelayMs(d)` exits once `d` milliseconds modulo 2^32 have passed since `T0` (42_configuration.md R165). -/
theorem delayCheck_eq (d : Word) (next : Seg) : delayCheck d next c s
    = .next (resume { c with seg := if d.toNat ≤ (s.nowMs - c.t0).toNat then next else .delayLoop } s) := by
  simp [delayCheck, elapsed]

end Endings

/-! The positions. -/

section Positions

variable {s : State} {c : Ctx}

theorem execInit_start (hc : s.ctx = some c) (hseg : c.seg = .start) :
    exec .init s = rmwRead s.params.cfg0Reg .bankWrite c s := by
  simp only [exec, execInit, inCommand_some hc, hseg, selectBankRead]

theorem execInit_bankWrite (hc : s.ctx = some c) (hseg : c.seg = .bankWrite) :
    exec .init s = selectBankWrite 0 c s (resume { c with seg := .ponRead }) := by
  simp only [exec, execInit, inCommand_some hc, hseg]

theorem execInit_ponRead (hc : s.ctx = some c) (hseg : c.seg = .ponRead) :
    exec .init s = rmwRead s.params.enableReg .ponWrite c s := by
  simp only [exec, execInit, inCommand_some hc, hseg]

theorem execInit_ponWrite (hc : s.ctx = some c) (hseg : c.seg = .ponWrite) :
    exec .init s = wr s.params.enableReg [c.v ||| bitMask s.params.ponBit.val] s (resume { c with seg := .delayStart }) := by
  simp only [exec, execInit, inCommand_some hc, hseg, rmwWrite, rmwByte_zero]

theorem execInit_delayStart (hc : s.ctx = some c) (hseg : c.seg = .delayStart) :
    exec .init s = latchNow .delayLoop c s := by
  simp only [exec, execInit, inCommand_some hc, hseg]

theorem execInit_delayLoop (hc : s.ctx = some c) (hseg : c.seg = .delayLoop) :
    exec .init s = delayCheck s.params.stabDelayMs .smuxRead c s := by
  simp only [exec, execInit, inCommand_some hc, hseg]

theorem execInit_smuxRead (hc : s.ctx = some c) (hseg : c.seg = .smuxRead) :
    exec .init s = rmwRead s.params.smuxReg .smuxWrite c s := by
  simp only [exec, execInit, inCommand_some hc, hseg]

theorem execInit_smuxWrite (hc : s.ctx = some c) (hseg : c.seg = .smuxWrite) :
    exec .init s = wr s.params.smuxReg [rmwByte c.v (smuxMask s.params) (smuxValue s.params)] s
      (resume { c with seg := .gainRead }) := by
  simp only [exec, execInit, inCommand_some hc, hseg, rmwWrite]

theorem execInit_gainRead (hc : s.ctx = some c) (hseg : c.seg = .gainRead) :
    exec .init s = rmwRead s.params.gainReg .gainWrite c s := by
  simp only [exec, execInit, inCommand_some hc, hseg]

theorem execInit_gainWrite (hc : s.ctx = some c) (hseg : c.seg = .gainWrite) :
    exec .init s = wr s.params.gainReg [rmwByte c.v gainMask (defaultGainByte s.params)] s
      (resume { c with seg := .spenRead }) := by
  simp only [exec, execInit, inCommand_some hc, hseg, rmwWrite]

theorem execInit_spenRead (hc : s.ctx = some c) (hseg : c.seg = .spenRead) :
    exec .init s = rmwRead s.params.enableReg .spenWrite c s := by
  simp only [exec, execInit, inCommand_some hc, hseg]

theorem execInit_spenWrite (hc : s.ctx = some c) (hseg : c.seg = .spenWrite) :
    exec .init s = wr s.params.enableReg [c.v ||| bitMask s.params.spenBit.val] s succeed := by
  simp only [exec, execInit, inCommand_some hc, hseg, rmwWrite, rmwByte_zero]

/-- `SET_ITIME` outside bank 0 is refused before its first write (30_encoding.md R106). -/
theorem execSetItime_refused (hc : s.ctx = some c) (hseg : c.seg = .start) (hbank : s.status.bank ≠ 0b00) :
    exec .setItime s = .next (fail .bank s) := by
  simp only [exec, execSetItime, inCommand_some hc, hseg]
  exact if_pos hbank

theorem execSetItime_start (hc : s.ctx = some c) (hseg : c.seg = .start) (hbank : s.status.bank = 0b00) :
    exec .setItime s = wr s.params.atimeReg [s.arg.extractLsb' 0 8] s (resume { c with seg := .astepLow }) := by
  simp only [exec, execSetItime, inCommand_some hc, hseg]
  exact if_neg (not_not.mpr hbank)

theorem execSetItime_astepLow (hc : s.ctx = some c) (hseg : c.seg = .astepLow) :
    exec .setItime s = wr s.params.astepReg [s.arg.extractLsb' 8 8] s (resume { c with seg := .astepHigh }) := by
  simp only [exec, execSetItime, inCommand_some hc, hseg, lowByte_argAstep]

theorem execSetItime_astepHigh (hc : s.ctx = some c) (hseg : c.seg = .astepHigh) :
    exec .setItime s = wr (s.params.astepReg + 1) [s.arg.extractLsb' 16 8] s succeed := by
  simp only [exec, execSetItime, inCommand_some hc, hseg, highByte_argAstep]

theorem execSetTimeout_start (hc : s.ctx = some c) (hseg : c.seg = .start) :
    exec .setTimeout s = .next (succeed (s.setTimeout s.arg)) := by
  simp only [exec, execSetTimeout, inCommand_some hc, hseg]

/-- `SET_GAIN` with a code in range in bank 0 begins with the read of `GAIN_REG` (30_encoding.md R106). -/
theorem execSetGain_start_passed (hc : s.ctx = some c) (hseg : c.seg = .start) (hgain : (argGain s.arg).toNat ≤ maxGainCode)
    (hbank : s.status.bank = 0b00) : exec .setGain s = rmwRead s.params.gainReg .gainWrite c s := by
  rw [execSetGain_start hc hseg, if_neg (Nat.not_lt.mpr hgain)]
  exact if_neg (not_not.mpr hbank)

end Positions

end Sys2Proof.Machine
end

section
/-! SUPPORT. Whole commands on the reference target that answers by itself (20_memory.md R76, R77): where such a run stands, and
what a turn of `CTRL` that reads or writes one register at 0x80 or above makes of it. -/

namespace Sys2Proof.Machine

/-! One byte of the reference target. -/

/-- The target after the byte `v` has been stored in register `r`. -/
def Target.stored (r : BitVec 8) (v : Byte) (g : Target) : Target := (g.setRegs (g.regs.write r.toNat v)).setPtr (r + 1)

/-- One byte stored at 0x80 or above. -/
theorem Target.storeBurst_one {r : BitVec 8} (hr : 0x80 ≤ r.toNat) (p : Params) (v : Byte) (g : Target) :
    g.storeBurst p r [v] = g.stored r v := by
  simp [Target.storeBurst, Target.storeReg, Target.stored, hr]

/-- One byte read at 0x80 or above. -/
theorem Target.fetchBurst_one {r : BitVec 8} (hr : 0x80 ≤ r.toNat) (p : Params) (g : Target) :
    g.fetchBurst p 1 r = ([g.reg r], g.setPtr (r + 1)) := by
  simp [Target.fetchBurst, Target.fetchReg, hr]

theorem Target.stored_read_same (r : BitVec 8) (v : Byte) (g : Target) : (g.stored r v).regs.read r.toNat = some v :=
  Memory.read_write_same r.toNat v g.regs

theorem Target.stored_read_other {a : Nat} {r : BitVec 8} (h : a ≠ r.toNat) (v : Byte) (g : Target) :
    (g.stored r v).regs.read a = g.regs.read a := Memory.read_write_other h v g.regs

/-- A register that was stored holds the byte stored. -/
theorem Target.reg_of_read {g : Target} {r : BitVec 8} {v : Byte} (h : g.regs.read r.toNat = some v) : g.reg r = v := by
  simp [Target.reg, h]

/-- The target after the three writes of `SET_ITIME` (42_configuration.md R170). -/
def Target.itimeStored (p : Params) (arg : Word) (g : Target) : Target :=
  ((g.stored p.atimeReg (arg.extractLsb' 0 8)).stored p.astepReg (arg.extractLsb' 8 8)).stored (p.astepReg + 1)
    (arg.extractLsb' 16 8)

/-- The three writes of `SET_ITIME` go to three different registers, and to no other (00_scope.md R8). -/
theorem Target.itimeStored_read {p : Params} (hwf : p.wf = true) (arg : Word) (g : Target) :
    (g.itimeStored p arg).regs.read p.atimeReg.toNat = some (arg.extractLsb' 0 8)
      ∧ (g.itimeStored p arg).regs.read p.astepReg.toNat = some (arg.extractLsb' 8 8)
      ∧ (g.itimeStored p arg).regs.read (p.astepReg + 1).toNat = some (arg.extractLsb' 16 8)
      ∧ ∀ a, a ≠ p.atimeReg.toNat → a ≠ p.astepReg.toNat → a ≠ p.astepReg.toNat + 1 →
          (g.itimeStored p arg).regs.read a = g.regs.read a := by
  obtain ⟨-, -, -, -, -, -, -, -, hnext⟩ := Params.wf_regs hwf
  obtain ⟨hne, hne'⟩ := Params.wf_ne hwf
  have hlast {a : Nat} (ha : a ≠ p.astepReg.toNat + 1) : (g.itimeStored p arg).regs.read a
      = ((g.stored p.atimeReg (arg.extractLsb' 0 8)).stored p.astepReg (arg.extractLsb' 8 8)).regs.read a :=
    Target.stored_read_other (hnext ▸ ha) _ _
  refine ⟨?_, ?_, Target.stored_read_same _ _ _, fun a h1 h2 h3 => ?_⟩
  · rw [hlast hne', Target.stored_read_other hne, Target.stored_read_same]
  · rw [hlast (by omega), Target.stored_read_same]
  · rw [hlast h3, Target.stored_read_other h2, Target.stored_read_other h1]

/-- The reference target answers by itself: nothing is scripted (20_memory.md R77). -/
structure Target.AnswersItself (g : Target) : Prop where
  kind : g.kind = .reference
  script : g.script = []

theorem Target.AnswersItself.stored {g : Target} (h : g.AnswersItself) (r : BitVec 8) (v : Byte) :
    (g.stored r v).AnswersItself := ⟨h.kind, h.script⟩

theorem Target.AnswersItself.setPtr {g : Target} (h : g.AnswersItself) (r : BitVec 8) : (g.setPtr r).AnswersItself :=
  ⟨h.kind, h.script⟩

/-! Where a run stands. -/

/-- A run of a command that began at `s` stands at position `c`, with `RESULT` and the target as given and `turns` to come; the
rest of the state is as it was. -/
def State.midRun (s : State) (c : Ctx) (res : Result) (g : Target) (turns : List Event) : State :=
  (((s.setCtx (some c)).setResult res).setTarget g).setAgenda turns

theorem State.midRun_self {s : State} {c : Ctx} (h : s.ctx = some c) : s.midRun c s.result s.target s.agenda = s := by
  rw [State.midRun, State.setCtx, ← h]
  rfl

@[simp] theorem State.midRun_timeout (s : State) (c : Ctx) (res : Result) (g : Target) (turns : List Event) :
    (s.midRun c res g turns).timeout = s.timeout := rfl

/-- `RESULT` after one more transaction (40_bus_adapter.md R130). -/
def Result.counted (res : Result) : Result := res.setTxcount (countUp res.txcount)

section Turns

variable {i : Instr} {s : State} {c : Ctx} {res : Result} {g : Target} {turns : List Event} {r : BitVec 8}

/-- A turn whose segment is a one-byte write. -/
theorem step_wr_midRun {v : Byte} {k : State → State} (hbusy : s.status.busy = true) (hcmd : decode s.cmd = .ok i)
    (hg : g.AnswersItself) (hr : 0x80 ≤ r.toNat)
    (hexec : exec i (s.midRun c res g turns) = wr r [v] (s.midRun c res g turns) k) :
    step (s.midRun c res g (.ctrl :: turns)) = .next (k (s.midRun c res.counted (g.stored r v) turns)) := by
  have hstep := stepRunsDecodedCommand (s.midRun c res g (.ctrl :: turns)) turns i rfl hbusy hcmd
  have hwrite := busWrite_reference (s := s.midRun c res g turns) r [v] hg.kind hg.script
  rw [Target.storeBurst_one hr] at hwrite
  exact hstep.trans (hexec.trans (wr_acked hwrite))

/-- A turn whose segment is the first half of a read-modify-write. -/
theorem step_rmwRead_midRun {next : Seg} (hbusy : s.status.busy = true) (hcmd : decode s.cmd = .ok i)
    (hg : g.AnswersItself) (hr : 0x80 ≤ r.toNat)
    (hexec : exec i (s.midRun c res g turns) = rmwRead r next c (s.midRun c res g turns)) :
    step (s.midRun c res g (.ctrl :: turns))
      = .next (s.midRun { c with seg := next, v := g.reg r } (res.counted.setRcount 1) (g.setPtr (r + 1)) turns) := by
  have hstep := stepRunsDecodedCommand (s.midRun c res g (.ctrl :: turns)) turns i rfl hbusy hcmd
  have hread := busRead_reference (s := s.midRun c res g turns) r 1 hg.kind hg.script
  rw [Target.fetchBurst_one hr] at hread
  exact hstep.trans (hexec.trans (rd_answered hread))

end Turns

/-! Whole commands. -/

section Runs

variable {s : State} {c : Ctx} {res : Result} {g : Target} {turns : List Event}

/-- A whole `SET_GAIN` in bank 0 with a code in range (42_configuration.md R168). -/
theorem setGain_run (hbusy : s.status.busy = true) (hcmd : decode s.cmd = .ok .setGain) (hg : g.AnswersItself)
    (hhigh : 0x80 ≤ s.params.gainReg.toNat) (hseg : c.seg = .start) (hgain : (argGain s.arg).toNat ≤ maxGainCode)
    (hbank : s.status.bank = 0b00) :
    ∃ c' res', runSteps 2 (s.midRun c res g (.ctrl :: .ctrl :: turns)) = .next (succeed (s.midRun c' res'
      ((g.setPtr (s.params.gainReg + 1)).stored s.params.gainReg
        (rmwByte (g.reg s.params.gainReg) gainMask ((argGain s.arg).zeroExtend 8))) turns)) := by
  have hread := step_rmwRead_midRun (res := res) (turns := .ctrl :: turns) hbusy hcmd hg hhigh
    (execSetGain_start_passed rfl hseg hgain hbank)
  have hwrite (c₁ : Ctx) (res₁ : Result) (hseg₁ : c₁.seg = .gainWrite) := step_wr_midRun (res := res₁) (turns := turns)
    hbusy hcmd (hg.setPtr (s.params.gainReg + 1)) hhigh (execSetGain_gainWrite rfl hseg₁)
  exact ⟨_, _, (runSteps_succ 1 hread).trans (runSteps_succ 0 (hwrite _ _ rfl))⟩

/-- A whole `SET_ITIME` in bank 0 (42_configuration.md R170). -/
theorem setItime_run (hbusy : s.status.busy = true) (hcmd : decode s.cmd = .ok .setItime) (hg : g.AnswersItself)
    (hatime : 0x80 ≤ s.params.atimeReg.toNat) (hlow : 0x80 ≤ s.params.astepReg.toNat)
    (hhigh : 0x80 ≤ (s.params.astepReg + 1).toNat) (hseg : c.seg = .start) (hbank : s.status.bank = 0b00) :
    ∃ c', runSteps 3 (s.midRun c res g (.ctrl :: .ctrl :: .ctrl :: turns))
      = .next (succeed (s.midRun c' res.counted.counted.counted (g.itimeStored s.params s.arg) turns)) := by
  have hg₁ := hg.stored s.params.atimeReg (s.arg.extractLsb' 0 8)
  have hg₂ := hg₁.stored s.params.astepReg (s.arg.extractLsb' 8 8)
  have hfirst := step_wr_midRun (res := res) (turns := .ctrl :: .ctrl :: turns) hbusy hcmd hg hatime
    (execSetItime_start rfl hseg hbank)
  have hsecond (c₁ : Ctx) (hseg₁ : c₁.seg = .astepLow) := step_wr_midRun (res := res.counted) (turns := .ctrl :: turns)
    hbusy hcmd hg₁ hlow (execSetItime_astepLow rfl hseg₁)
  have hthird (c₂ : Ctx) (hseg₂ : c₂.seg = .astepHigh) := step_wr_midRun (res := res.counted.counted) (turns := turns)
    hbusy hcmd hg₂ hhigh (execSetItime_astepHigh rfl hseg₂)
  exact ⟨_, (runSteps_succ 2 hfirst).trans
    ((runSteps_succ 1 (hsecond _ rfl)).trans (runSteps_succ 0 (hthird _ rfl)))⟩

end Runs

end Sys2Proof.Machine
end

section
/-! SUPPORT. The obligations of 42_configuration.md. -/

namespace Sys2Proof.Machine

/-! Single segments. -/

/-- Settles O38. -/
theorem setTimeoutStoresArg : Obligations.SetTimeoutStoresArg := by
  unfold Obligations.SetTimeoutStoresArg
  intro s c hc hseg
  have hvalid : sameValid s (succeed (s.setTimeout s.arg)) := ⟨rfl, rfl⟩
  exact ⟨_, execSetTimeout_start hc hseg, completes_succeed rfl, ⟨rfl, rfl⟩, rfl, rfl, rfl, rfl, rfl, hvalid, .refl s, rfl⟩

/-- Settles O33: every position is half of a read-modify-write, a transaction of `SelectBank`, or only looks at the clock. -/
theorem initRunsItsSequence : Obligations.InitRunsItsSequence := by
  unfold Obligations.InitRunsItsSequence
  intro s c hc
  refine ⟨fun hseg => ?start, fun hseg => ?bankWrite, fun hseg => ?ponRead, fun hseg => ?ponWrite, fun hseg => ?delayStart,
    fun hseg => ?delayLoop, fun hseg => ?smuxRead, fun hseg => ?smuxWrite, fun hseg => ?gainRead, fun hseg => ?gainWrite,
    fun hseg => ?spenRead, fun hseg => ?spenWrite⟩
  case start => exact readsByteThen_of_rmwRead (execInit_start hc hseg)
  case bankWrite => exact selectsBankThen_of_selectBankWrite_resume (execInit_bankWrite hc hseg) rfl
  case ponRead => exact readsByteThen_of_rmwRead (execInit_ponRead hc hseg)
  case ponWrite => exact writesByteThen_of_wr_resume (execInit_ponWrite hc hseg) rfl
  case delayStart => exact latchesTimeThen_of_latchNow (execInit_delayStart hc hseg)
  case delayLoop => exact ⟨_, _, (execInit_delayLoop hc hseg).trans (delayCheck_eq _ _), ⟨rfl, rfl⟩, rfl, rfl, rfl, rfl⟩
  case smuxRead => exact readsByteThen_of_rmwRead (execInit_smuxRead hc hseg)
  case smuxWrite => exact writesByteThen_of_wr_resume (execInit_smuxWrite hc hseg) rfl
  case gainRead => exact readsByteThen_of_rmwRead (execInit_gainRead hc hseg)
  case gainWrite => exact writesByteThen_of_wr_resume (execInit_gainWrite hc hseg) rfl
  case spenRead => exact readsByteThen_of_rmwRead (execInit_spenRead hc hseg)
  case spenWrite => exact writesByteThen_of_wr_succeed (execInit_spenWrite hc hseg)

/-- Settles O36. -/
theorem setItimeWritesThreeBytes : Obligations.SetItimeWritesThreeBytes := by
  unfold Obligations.SetItimeWritesThreeBytes
  intro s c hc
  refine ⟨fun hseg hbank => ?refused, fun hseg hbank => ?start, fun hseg => ?astepLow, fun hseg => ?astepHigh⟩
  case refused => exact ⟨_, execSetItime_refused hc hseg hbank, completes_fail rfl .bank, rfl, rfl⟩
  case start => exact writesByteThen_of_wr_resume (execSetItime_start hc hseg hbank) rfl
  case astepLow => exact writesByteThen_of_wr_resume (execSetItime_astepLow hc hseg) rfl
  case astepHigh => exact writesByteThen_of_wr_succeed (execSetItime_astepHigh hc hseg)

/-! Whole commands on the reference target. -/

/-- Settles O35: the read finds the stored byte, and the write stores it back with the code in its low bits. -/
theorem setGainOnReferenceTarget : Obligations.SetGainOnReferenceTarget := by
  unfold Obligations.SetGainOnReferenceTarget
  intro s v rest hbusy hcmd hctx hagenda hkind hscript hwf hbank hgain hread
  obtain ⟨-, -, -, -, -, hhigh, -⟩ := Params.wf_regs hwf
  obtain ⟨c', res', hrun⟩ := setGain_run (c := Ctx.fresh) (res := s.result) (turns := rest) hbusy hcmd
    ⟨hkind, hscript⟩ hhigh rfl hgain hbank
  rw [← hagenda, State.midRun_self hctx, Target.reg_of_read hread] at hrun
  obtain ⟨hlow, hkept⟩ := rmwByte_gainMask_fields v (argGain s.arg)
  exact ⟨_, _, hrun, completes_succeed rfl, rfl, Target.stored_read_same _ _ _, hlow, hkept,
    fun a ha => ⟨rfl, Target.stored_read_other (by omega) _ _, rfl⟩⟩

/-- Settles O37: three stores at 0x80 and above, to three different registers (00_scope.md R8). -/
theorem setItimeOnReferenceTarget : Obligations.SetItimeOnReferenceTarget := by
  unfold Obligations.SetItimeOnReferenceTarget
  intro s rest hbusy hcmd hctx hagenda hkind hscript hwf hbank hcount
  obtain ⟨-, -, -, hatime, hastep, -, -, -, hnext⟩ := Params.wf_regs hwf
  obtain ⟨c', hrun⟩ := setItime_run (c := Ctx.fresh) (res := s.result) (turns := rest) hbusy hcmd
    ⟨hkind, hscript⟩ hatime hastep (by omega) rfl hbank
  rw [← hagenda, State.midRun_self hctx] at hrun
  obtain ⟨hread0, hread1, hread2, hother⟩ := Target.itimeStored_read hwf s.arg s.target
  refine ⟨_, hrun, completes_succeed rfl, rfl, ?count, rfl, ?timeout, Target.reg_of_read hread0, Target.reg_of_read hread1,
    Target.reg_of_read hread2, hother, rfl, rfl⟩
  case count =>
    show countUp (countUp (countUp s.result.txcount)) = 3
    rw [hcount]
    rfl
  case timeout => rw [succeed_timeout, State.midRun_timeout]

end Sys2Proof.Machine
end

section
/-! SUPPORT. `WAIT_DATA_READY`, `READ_ALL` and `GET_SORTED` (43_acquisition.md R185 to R191), one equation per position and, where
a proof needs it, per outcome of its transaction. -/

namespace Sys2Proof.Machine

/-! The wait. -/

section Wait

variable {i : Instr} {s : State} {c : Ctx}

theorem waitTimeCheck_expired (h : s.timeout.toNat ≤ (s.nowMs - c.t0).toNat) :
    waitTimeCheck c s = .next (fail .timeout s) :=
  congrArg _ (if_pos (decide_eq_true h))

theorem waitTimeCheck_inside (h : (s.nowMs - c.t0).toNat < s.timeout.toNat) :
    waitTimeCheck c s = .next (resume { c with seg := .poll } s) :=
  congrArg _ (if_neg (ne_true_of_eq_false (decide_eq_false (Nat.not_le.mpr h))))

/-- A segment that is the time check of `WaitReady` (43_acquisition.md R185). -/
theorem checksTimeout_of_waitTimeCheck (h : exec i s = waitTimeCheck c s) : ChecksTimeout i c.t0 s := by
  obtain hlt | hle := Nat.lt_or_ge (s.nowMs - c.t0).toNat s.timeout.toNat
  · exact ⟨_, h.trans (waitTimeCheck_inside hlt), ⟨rfl, rfl⟩, fun hle => absurd hle (Nat.not_le.mpr hlt),
      fun _ => ⟨⟨rfl, _, rfl, rfl⟩, _, rfl, rfl⟩⟩
  · exact ⟨_, h.trans (waitTimeCheck_expired hle), ⟨rfl, rfl⟩, fun _ => ⟨completes_fail rfl .timeout, rfl⟩,
      fun hlt => absurd hlt (Nat.not_lt.mpr hle)⟩

variable {s' : State} {v : Byte} {k : State → State}

theorem waitPoll_ready (h : busRead s.params.devAddr s.params.statusReg 1 s = some ((.none, [v]), s'))
    (hv : readyBit s.params v = true) : waitPoll c s k = .next (k s') :=
  (rd_answered h).trans (congrArg _ (if_pos hv))

theorem waitPoll_not_ready (h : busRead s.params.devAddr s.params.statusReg 1 s = some ((.none, [v]), s'))
    (hv : readyBit s.params v = false) : waitPoll c s k = .next (resume { c with seg := .waitCheck } s') :=
  (rd_answered h).trans (congrArg _ (if_neg (ne_true_of_eq_false hv)))

/-- A segment that is the poll of `WaitReady`, with an ending that leaves the target, the counters and the mirror
(43_acquisition.md R185). -/
theorem pollsReady_of_waitPoll {after : State → Prop} (h : exec i s = waitPoll c s k)
    (hk : ∀ u, AfterTransaction u (k u) ∧ (k u).status.bank = u.status.bank)
    (hafter : ∀ u, u.status = s.status → u.cmd = s.cmd → after (k u)) : PollsReady i c.t0 s after := by
  intro code bytes s' hread
  obtain ⟨hstatus, -, -, hcmd, -⟩ := busRead_same hread
  have hbank : s'.status.bank = s.status.bank := congrArg Status.bank hstatus
  obtain ⟨rfl, v, rfl⟩ | hcode := busRead_one_cases hread
  · cases hv : readyBit s.params v with
    | true =>
      obtain ⟨htx, hkept⟩ := hk s'
      refine ⟨_, h.trans (waitPoll_ready hread hv), htx, hkept.trans hbank, fun _ => ⟨v, rfl, ?_, ?_⟩, fun h => absurd rfl h⟩
      · exact fun _ => hafter s' hstatus hcmd
      · exact fun hclear => absurd hv (ne_true_of_eq_false hclear)
    | false =>
      refine ⟨_, h.trans (waitPoll_not_ready hread hv), ⟨rfl, rfl⟩, hbank, fun _ => ⟨v, rfl, ?_, ?_⟩, fun h => absurd rfl h⟩
      · exact fun hset => absurd hset (ne_true_of_eq_false hv)
      · exact fun _ => ⟨⟨hstatus, _, rfl, rfl⟩, _, rfl, rfl⟩
  · exact ⟨_, h.trans (rd_failed hread hcode), ⟨rfl, rfl⟩, hbank, fun h => absurd h hcode, fun _ => completes_fail hcmd code⟩

/-! `WAIT_DATA_READY`. -/

theorem execWaitDataReady_start (hc : s.ctx = some c) (hseg : c.seg = .start) :
    exec .waitDataReady s = latchNow .waitCheck c s := by
  simp only [exec, execWaitDataReady, inCommand_some hc, hseg]

theorem execWaitDataReady_waitCheck (hc : s.ctx = some c) (hseg : c.seg = .waitCheck) :
    exec .waitDataReady s = waitTimeCheck c s := by
  simp only [exec, execWaitDataReady, inCommand_some hc, hseg]

theorem execWaitDataReady_poll (hc : s.ctx = some c) (hseg : c.seg = .poll) :
    exec .waitDataReady s = waitPoll c s succeed := by
  simp only [exec, execWaitDataReady, inCommand_some hc, hseg]

end Wait

/-! One channel. -/

section Channel

variable {s : State} {c : Ctx} {b0 b1 : Byte} {finish : State → State}

/-- A channel before the last is stored, and the next one follows. -/
theorem storeChannel_next (h : c.i.val + 1 < 18) : storeChannel c finish [b0, b1] s
    = resume { c with stg := b1 ++ b0, i := ⟨c.i.val + 1, h⟩ } (s.setCh (s.ch.set c.i.val (b1 ++ b0) c.i.isLt)) :=
  dif_pos h

/-- After the last channel is stored, the reading is at its end. -/
theorem storeChannel_last (h : c.i.val = 17) : storeChannel c finish [b0, b1] s
    = finish (s.setCh (s.ch.set c.i.val (b1 ++ b0) c.i.isLt)) :=
  dif_neg (by omega)

theorem channel_set_same (ch : Vector Half 18) (k : Fin 18) (x : Half) : (ch.set k.val x k.isLt)[k] = x :=
  Vector.getElem_set_self k.isLt

theorem channel_set_other (ch : Vector Half 18) {j k : Fin 18} (h : k ≠ j) (x : Half) :
    (ch.set j.val x j.isLt)[k] = ch[k] :=
  Vector.getElem_set_ne j.isLt k.isLt fun he => h (Fin.ext he.symm)

end Channel

/-! The body of `READ_ALL` and `GET_SORTED`. -/

/-- What `READ_ALL` and `GET_SORTED` do after the last channel (43_acquisition.md R188, R190). -/
def finishReading : Instr → State → State
  | .getSorted, s => succeed (sortChannels (validateChannels s))
  | _, s => succeed (validateChannels s)

theorem exec_reading {i : Instr} (hi : i = .readAll ∨ i = .getSorted) (s : State) :
    exec i s = acquire (finishReading i) s := by
  obtain rfl | rfl := hi
  · rfl
  · rfl

/-- Either end completes with success and `CH_VALID`, and leaves the target, the counters, the mirror and `CH`. -/
theorem finishReading_completes (i : Instr) (s : State) :
    Completes true .none s (finishReading i s) ∧ AfterTransaction s (finishReading i s)
      ∧ (finishReading i s).status.bank = s.status.bank ∧ (finishReading i s).ch = s.ch
      ∧ (finishReading i s).status.chValid = true := by
  unfold finishReading
  split <;> exact ⟨completes_succeed rfl, ⟨rfl, rfl⟩, rfl, rfl, rfl⟩

section Acquire

variable {s s' : State} {c : Ctx} {finish : State → State} {code : ErrCode} {bytes : List Byte} {v b0 b1 : Byte}

theorem acquire_start_read (hc : s.ctx = some c) (hseg : c.seg = .start)
    (h : busRead s.params.devAddr s.params.cfg0Reg 1 s = some ((.none, [v]), s')) :
    acquire finish s = .next (resume { c with seg := .bankWrite, v := v } (startReading s')) := by
  simp only [acquire, inCommand_some hc, hseg]
  exact onRead_answered h

theorem acquire_start_failed (hc : s.ctx = some c) (hseg : c.seg = .start)
    (h : busRead s.params.devAddr s.params.cfg0Reg 1 s = some ((code, bytes), s')) (hcode : code ≠ .none) :
    acquire finish s = .next (fail code (startReading s')) := by
  simp only [acquire, inCommand_some hc, hseg]
  exact (onRead_answered h).trans (congrArg _ (if_neg hcode))

theorem acquire_bankWrite (hc : s.ctx = some c) (hseg : c.seg = .bankWrite) :
    acquire finish s = selectBankWrite 0 c s (resume { c with seg := .waitStart }) := by
  simp only [acquire, inCommand_some hc, hseg]

theorem acquire_waitStart (hc : s.ctx = some c) (hseg : c.seg = .waitStart) :
    acquire finish s = latchNow .waitCheck c s := by
  simp only [acquire, inCommand_some hc, hseg]

theorem acquire_waitCheck (hc : s.ctx = some c) (hseg : c.seg = .waitCheck) :
    acquire finish s = waitTimeCheck c s := by
  simp only [acquire, inCommand_some hc, hseg]

theorem acquire_poll (hc : s.ctx = some c) (hseg : c.seg = .poll) :
    acquire finish s = waitPoll c s (resume { c with seg := .channel, i := 0 }) := by
  simp only [acquire, inCommand_some hc, hseg]

theorem acquire_channel (hc : s.ctx = some c) (hseg : c.seg = .channel) :
    acquire finish s = rd (channelReg s.params c.i) 2 s (storeChannel c finish) := by
  simp only [acquire, inCommand_some hc, hseg]

theorem acquire_channel_next (hc : s.ctx = some c) (hseg : c.seg = .channel)
    (h : busRead s.params.devAddr (channelReg s.params c.i) 2 s = some ((.none, [b0, b1]), s')) (hi : c.i.val + 1 < 18) :
    acquire finish s = .next (resume { c with stg := b1 ++ b0, i := ⟨c.i.val + 1, hi⟩ }
      (s'.setCh (s'.ch.set c.i.val (b1 ++ b0) c.i.isLt))) :=
  (acquire_channel hc hseg).trans ((rd_answered h).trans (congrArg _ (storeChannel_next hi)))

theorem acquire_channel_last (hc : s.ctx = some c) (hseg : c.seg = .channel)
    (h : busRead s.params.devAddr (channelReg s.params c.i) 2 s = some ((.none, [b0, b1]), s')) (hi : c.i.val = 17) :
    acquire finish s = .next (finish (s'.setCh (s'.ch.set c.i.val (b1 ++ b0) c.i.isLt))) :=
  (acquire_channel hc hseg).trans ((rd_answered h).trans (congrArg _ (storeChannel_last hi)))

theorem acquire_channel_failed (hc : s.ctx = some c) (hseg : c.seg = .channel)
    (h : busRead s.params.devAddr (channelReg s.params c.i) 2 s = some ((code, bytes), s')) (hcode : code ≠ .none) :
    acquire finish s = .next (fail code s') :=
  (acquire_channel hc hseg).trans (rd_failed h hcode)

end Acquire

/-! How a segment of a reading can end. -/

/-- The state `t` after a segment of a reading from `s`: still in progress, failed, or at the end that `finish` makes
(43_acquisition.md R188). -/
inductive ReadingEnds (finish : State → State) (s : State) : State → Prop
  | inProgress {t : State} (h : t.status.busy = s.status.busy) : ReadingEnds finish s t
  | failed {t : State} (h : t.status.ok = false) : ReadingEnds finish s t
  | finished (u : State) : ReadingEnds finish s (finish u)

section Ends

variable {s t : State} {c : Ctx} {finish : State → State}

theorem readingEnds_resume (c' : Ctx) {s' : State} (h : s'.status.busy = s.status.busy) :
    ReadingEnds finish s (resume c' s') := .inProgress h

theorem readingEnds_fail (code : ErrCode) (s' : State) : ReadingEnds finish s (fail code s') := .failed rfl

theorem readingEnds_storeChannel (bytes : List Byte) {s' : State} (h : s'.status.busy = s.status.busy) :
    ReadingEnds finish s (storeChannel c finish bytes s') := by
  unfold storeChannel
  dsimp only
  split
  · exact readingEnds_resume _ h
  · exact .finished _

theorem acquire_ends (h : acquire finish s = .next t) : ReadingEnds finish s t := by
  have hkept {a : BitVec 7} {r : BitVec 8} {n : Nat} {x : ErrCode × List Byte} {s' : State}
      (hread : busRead a r n s = some (x, s')) : s'.status.busy = s.status.busy := by
    obtain ⟨hstatus, -⟩ := busRead_same hread
    exact congrArg Status.busy hstatus
  obtain ⟨c, hc, -⟩ := inCommand_next h
  cases hseg : c.seg with
  | start =>
    simp only [acquire, inCommand_some hc, hseg] at h
    refine onRead_elim h (.inProgress rfl) fun code bytes s' hread => ?_
    have hbusy := hkept hread
    dsimp only
    split
    · exact readingEnds_resume _ hbusy
    · exact readingEnds_fail _ _
  | bankWrite =>
    rw [acquire_bankWrite hc hseg] at h
    refine onWrite_elim h (.inProgress rfl) fun o s' hwrite => ?_
    obtain ⟨hstatus, -⟩ := busWrite_same hwrite
    have hbusy : s'.status.busy = s.status.busy := congrArg Status.busy hstatus
    split
    · exact readingEnds_resume _ hbusy
    · exact readingEnds_fail _ _
  | waitStart =>
    rw [acquire_waitStart hc hseg] at h
    cases h
    exact readingEnds_resume _ rfl
  | waitCheck =>
    rw [acquire_waitCheck hc hseg] at h
    cases h
    split
    · exact readingEnds_fail _ _
    · exact readingEnds_resume _ rfl
  | poll =>
    rw [acquire_poll hc hseg] at h
    refine rd_elim h (.inProgress rfl) (fun bytes s' hread => ?_) fun code _ s' _ _ => readingEnds_fail code s'
    split
    · exact readingEnds_resume _ (hkept hread)
    · exact readingEnds_resume _ (hkept hread)
  | channel =>
    rw [acquire_channel hc hseg] at h
    exact rd_elim h (.inProgress rfl) (fun bytes s' hread => readingEnds_storeChannel bytes (hkept hread))
      fun code _ s' _ _ => readingEnds_fail code s'
  | _ =>
    simp only [acquire, inCommand_some hc, hseg] at h
    cases h

end Ends

/-! The sorted values. -/

/-- The sorted view, entry by entry (43_acquisition.md R191). -/
theorem sortedView_toList (ch : Vector Half 18) : (sortedView ch).toList
    = [ch[12], ch[6], ch[0], ch[7], ch[8], ch[15], ch[1], ch[2], ch[9], ch[13], ch[14], ch[3]] := rfl

/-- The sorted view of the reading whose channel `i` holds `i` (43_acquisition.md R191). -/
theorem sortedView_of_indices {ch : Vector Half 18} (h : ∀ k : Fin 18, ch[k] = BitVec.ofNat 16 k.val) :
    (sortedView ch).toList = [12, 6, 0, 7, 8, 15, 1, 2, 9, 13, 14, 3] := by
  have hch : ch = Vector.ofFn fun k : Fin 18 => BitVec.ofNat 16 k.val := by
    ext k hk
    rw [Vector.getElem_ofFn, ← h ⟨k, hk⟩]
    rfl
  rw [hch]
  rfl

end Sys2Proof.Machine
end

section
/-! SUPPORT. The obligations of 43_acquisition.md about single segments. -/

namespace Sys2Proof.Machine

/-- Settles O39: the three positions are the three primitive calls of `WaitReady`. -/
theorem waitDataReadyPollsInsideWindow : Obligations.WaitDataReadyPollsInsideWindow := by
  unfold Obligations.WaitDataReadyPollsInsideWindow
  intro s c hc
  refine ⟨fun hseg => ?start, fun hseg => ?waitCheck, fun hseg => ?poll⟩
  case start => exact latchesTimeThen_of_latchNow (execWaitDataReady_start hc hseg)
  case waitCheck => exact checksTimeout_of_waitTimeCheck (execWaitDataReady_waitCheck hc hseg)
  case poll =>
    exact pollsReady_of_waitPoll (execWaitDataReady_poll hc hseg) (fun _ => ⟨⟨rfl, rfl⟩, rfl⟩)
      fun _ _ hcmd => completes_succeed hcmd

/-- Settles O40: the first segment by the outcome of its read, the others by their primitive calls. -/
theorem readingSelectsBankThenWaits : Obligations.ReadingSelectsBankThenWaits := by
  unfold Obligations.ReadingSelectsBankThenWaits
  intro i s c hi hc
  have hexec := exec_reading hi s
  refine ⟨fun hseg code bytes s' hread => ?start, fun hseg => ?bankWrite, fun hseg => ?waitStart, fun hseg => ?waitCheck,
    fun hseg => ?poll⟩
  case start =>
    obtain ⟨hstatus, -, -, hcmd, -⟩ := busRead_same hread
    have hbank : s'.status.bank = s.status.bank := congrArg Status.bank hstatus
    have hbusy : s'.status.busy = s.status.busy := congrArg Status.busy hstatus
    obtain ⟨rfl, v, rfl⟩ | hcode := busRead_one_cases hread
    · exact ⟨_, hexec.trans (acquire_start_read hc hseg hread), ⟨rfl, rfl⟩, rfl, rfl, hbank,
        fun _ => ⟨hbusy, _, rfl, rfl, rfl⟩, fun h => absurd rfl h⟩
    · exact ⟨_, hexec.trans (acquire_start_failed hc hseg hread hcode), ⟨rfl, rfl⟩, rfl, rfl, hbank,
        fun h => absurd h hcode, fun _ => completes_fail hcmd code⟩
  case bankWrite => exact selectsBankThen_of_selectBankWrite_resume (hexec.trans (acquire_bankWrite hc hseg)) rfl
  case waitStart => exact latchesTimeThen_of_latchNow (hexec.trans (acquire_waitStart hc hseg))
  case waitCheck => exact checksTimeout_of_waitTimeCheck (hexec.trans (acquire_waitCheck hc hseg))
  case poll =>
    exact pollsReady_of_waitPoll (hexec.trans (acquire_poll hc hseg)) (fun _ => ⟨⟨rfl, rfl⟩, rfl⟩)
      fun _ hstatus _ => ⟨⟨hstatus, _, rfl, rfl⟩, _, rfl, rfl⟩

/-- Settles O41: a failed read, a channel before the last, and the last one. -/
theorem channelReadFillsOneChannel : Obligations.ChannelReadFillsOneChannel := by
  unfold Obligations.ChannelReadFillsOneChannel
  intro i s s' c code bytes hi hc hseg hread
  have hexec := exec_reading hi s
  obtain ⟨hstatus, -, ⟨-, -, -, hch, hsorted, -⟩, hcmd, -⟩ := busRead_same hread
  have hbank : s'.status.bank = s.status.bank := congrArg Status.bank hstatus
  have hvalid : sameValid s s' := ⟨congrArg Status.chValid hstatus, congrArg Status.sortedValid hstatus⟩
  by_cases hcode : code = .none
  case neg =>
    exact ⟨_, hexec.trans (acquire_channel_failed hc hseg hread hcode), ⟨rfl, rfl⟩, hbank,
      fun _ => ⟨completes_fail hcmd code, hch, hsorted, hvalid⟩, fun h => absurd h hcode⟩
  subst hcode
  obtain ⟨b0, b1, rfl⟩ := List.length_eq_two.mp (busRead_length hread)
  have hsame := channel_set_same s'.ch c.i (b1 ++ b0)
  have hother (k : Fin 18) (hk : k ≠ c.i) : (s'.ch.set c.i.val (b1 ++ b0) c.i.isLt)[k] = s.ch[k] :=
    hch ▸ channel_set_other s'.ch hk _
  obtain hlt | hlast : c.i.val < 17 ∨ c.i.val = 17 := by omega
  · have hnext := acquire_channel_next (finish := finishReading i) hc hseg hread (Nat.succ_lt_succ hlt)
    exact ⟨_, hexec.trans hnext, ⟨rfl, rfl⟩, hbank, fun h => absurd rfl h, fun _ => ⟨b0, b1, rfl, hsame, hother,
      fun _ => ⟨⟨hstatus, _, rfl, hseg⟩, hsorted, _, rfl, rfl⟩, fun h => absurd h hlt.ne⟩⟩
  · have hend := acquire_channel_last (finish := finishReading i) hc hseg hread hlast
    obtain ⟨⟨hbusy, hdone, hok, herr, hctx, hcmd'⟩, htx, hbank', hch', hchValid⟩ :=
      finishReading_completes i (s'.setCh (s'.ch.set c.i.val (b1 ++ b0) c.i.isLt))
    refine ⟨_, hexec.trans hend, htx, hbank'.trans hbank, fun h => absurd rfl h, fun _ => ⟨b0, b1, rfl, ?_, ?_,
      fun h => absurd hlast h.ne, fun _ => ⟨⟨hbusy, hdone, hok, herr, hctx, hcmd'.trans hcmd⟩, hchValid, ?_, ?_⟩⟩⟩
    · rw [hch']; exact hsame
    · rw [hch']; exact hother
    · rintro rfl; exact ⟨hsorted, hvalid.2⟩
    · rintro rfl; exact ⟨rfl, rfl⟩

/-- Settles O43: a segment that ends the command with success is the end of the reading, which writes the sorted view. -/
theorem sortedViewIsPurePermutation : Obligations.SortedViewIsPurePermutation := by
  unfold Obligations.SortedViewIsPurePermutation
  intro s t hbusy hexec hdone hok
  have hsorted : t.sorted = sortedView t.ch := by
    cases acquire_ends (finish := finishReading .getSorted) hexec with
    | inProgress h => rw [hdone, hbusy] at h; cases h
    | failed h => rw [hok] at h; cases h
    | finished u => rfl
  rw [hsorted]
  exact ⟨sortedView_toList t.ch, sortedView_of_indices⟩

end Sys2Proof.Machine
end

section
/-! SUPPORT. A whole reading (43_acquisition.md R188, R190) on answers that a script fixes: the bank selection and the wait, then the
channels by induction. -/

namespace Sys2Proof.Machine

/-! Transactions of a run that take the next answer of the script. -/

section Scripted

variable {i : Instr} {s : State} {c : Ctx} {res : Result} {g : Target} {turns : List Event} {answers : List (Option Draw)}
  {bytes : List Byte}

/-- A turn of `CTRL` runs one segment of the command. -/
theorem step_midRun (hbusy : s.status.busy = true) (hcmd : decode s.cmd = .ok i) :
    step (s.midRun c res g (.ctrl :: turns)) = exec i (s.midRun c res g turns) :=
  stepRunsDecodedCommand _ turns i rfl hbusy hcmd

/-- A read that the script answers with all the bytes asked for. -/
theorem busRead_midRun (h : g.script = some (.ok bytes) :: answers) (a : BitVec 7) (r : BitVec 8) {n : Nat}
    (hlen : bytes.length = n) : ∃ g', g'.script = answers ∧ busRead a r n (s.midRun c res g turns)
      = some ((.none, bytes), s.midRun c (res.counted.setRcount (BitVec.ofNat 8 n)) g' turns) := by
  subst hlen
  have hread := busRead_scripted (a := a) (r := r) (n := bytes.length) (s := s.midRun c res g turns) h
  rw [List.take_length, if_pos rfl] at hread
  exact ⟨_, rfl, hread⟩

/-- A write that the script acknowledges. -/
theorem busWrite_midRun (h : g.script = some (.ok bytes) :: answers) (a : BitVec 7) (r : BitVec 8) (data : List Byte) :
    ∃ g', g'.script = answers
      ∧ busWrite a r data (s.midRun c res g turns) = some (.ack, s.midRun c res.counted g' turns) := by
  obtain ⟨-, hscript⟩ := Target.absorb_kind s.params a r data (g.setScript answers)
  exact ⟨_, hscript, busWrite_scripted (s := s.midRun c res g turns) h⟩

end Scripted

/-! The turns up to the channels. -/

/-- The state of a reading that began at `s`, after bank 0 has been selected (43_acquisition.md R188). -/
def State.bankSelected (s : State) : State := s.setStatus (s.status.readingStarted.setBank (bankMirror 0))

@[simp] theorem State.bankSelected_cmd (s : State) : s.bankSelected.cmd = s.cmd := rfl

@[simp] theorem State.midRun_cmd (s : State) (c : Ctx) (res : Result) (g : Target) (turns : List Event) :
    (s.midRun c res g turns).cmd = s.cmd := rfl

section Turns

variable {i : Instr} {s : State} {c : Ctx} {res : Result} {g : Target} {turns : List Event} {answers : List (Option Draw)}
  {v : Byte} {b : List Byte} (hi : i = .readAll ∨ i = .getSorted) (hbusy : s.status.busy = true)
  (hcmd : decode s.cmd = .ok i)

include hi hbusy hcmd

theorem step_reading : step (s.midRun c res g (.ctrl :: turns)) = acquire (finishReading i) (s.midRun c res g turns) :=
  (step_midRun hbusy hcmd).trans (exec_reading hi _)

theorem step_reading_start (hseg : c.seg = .start) (hscript : g.script = some (.ok [v]) :: answers) :
    ∃ g', g'.script = answers ∧ step (s.midRun c res g (.ctrl :: turns))
      = .next ((s.setStatus s.status.readingStarted).midRun { c with seg := .bankWrite, v := v }
        (res.counted.setRcount 1) g' turns) := by
  obtain ⟨g', hscript', hread⟩ := busRead_midRun (s := s) (c := c) (res := res) (turns := turns) hscript
    s.params.devAddr s.params.cfg0Reg rfl
  exact ⟨g', hscript', (step_reading hi hbusy hcmd).trans (acquire_start_read rfl hseg hread)⟩

theorem step_reading_bankWrite (hseg : c.seg = .bankWrite) (hscript : g.script = some (.ok b) :: answers) :
    ∃ g', g'.script = answers ∧ step (s.midRun c res g (.ctrl :: turns))
      = .next ((s.setStatus (s.status.setBank (bankMirror 0))).midRun { c with seg := .waitStart } res.counted g' turns) := by
  obtain ⟨g', hscript', hwrite⟩ := busWrite_midRun (s := s) (c := c) (res := res) (turns := turns) hscript
    s.params.devAddr s.params.cfg0Reg [bankByte s.params c.v 0]
  exact ⟨g', hscript', (step_reading hi hbusy hcmd).trans
    ((acquire_bankWrite rfl hseg).trans (tryBankWrite_acked (s := s.midRun c res g turns) hwrite))⟩

theorem step_reading_waitStart (hseg : c.seg = .waitStart) : step (s.midRun c res g (.ctrl :: turns))
    = .next (s.midRun { c with seg := .waitCheck, t0 := s.nowMs } res g turns) :=
  (step_reading hi hbusy hcmd).trans (acquire_waitStart rfl hseg)

theorem step_reading_waitCheck (hseg : c.seg = .waitCheck) (h : (s.nowMs - c.t0).toNat < s.timeout.toNat) :
    step (s.midRun c res g (.ctrl :: turns)) = .next (s.midRun { c with seg := .poll } res g turns) :=
  (step_reading hi hbusy hcmd).trans
    ((acquire_waitCheck rfl hseg).trans (waitTimeCheck_inside (s := s.midRun c res g turns) h))

theorem step_reading_poll (hseg : c.seg = .poll) (hready : readyBit s.params v = true)
    (hscript : g.script = some (.ok [v]) :: answers) :
    ∃ g', g'.script = answers ∧ step (s.midRun c res g (.ctrl :: turns))
      = .next (s.midRun { c with seg := .channel, i := 0 } (res.counted.setRcount 1) g' turns) := by
  obtain ⟨g', hscript', hread⟩ := busRead_midRun (s := s) (c := c) (res := res) (turns := turns) hscript
    s.params.devAddr s.params.statusReg rfl
  exact ⟨g', hscript', (step_reading hi hbusy hcmd).trans ((acquire_poll rfl hseg).trans (waitPoll_ready hread hready))⟩

/-- The turns up to the channels, where the first poll finds the ready bit set: bank 0 is selected, and three transactions are
counted. -/
theorem runSteps_reading_opening {st : Byte} (hseg : c.seg = .start) (htimeout : s.timeout ≠ 0)
    (hready : readyBit s.params st = true)
    (hscript : g.script = some (.ok [v]) :: some (.ok b) :: some (.ok [st]) :: answers) (n : Nat) :
    ∃ c' res' g', c'.seg = .channel ∧ c'.i.val = 0 ∧ res'.txcount = countUp (countUp (countUp res.txcount))
      ∧ g'.script = answers ∧ runSteps (n + 5) (s.midRun c res g (List.replicate 5 .ctrl ++ turns))
        = runSteps n (s.bankSelected.midRun c' res' g' turns) := by
  have hinside : (s.nowMs - s.nowMs).toNat < s.timeout.toNat := by
    rw [BitVec.sub_self]
    exact Nat.pos_of_ne_zero fun h => htimeout (BitVec.eq_of_toNat_eq h)
  obtain ⟨g₁, hscript₁, h₁⟩ := step_reading_start (res := res) (turns := List.replicate 4 .ctrl ++ turns) hi hbusy hcmd hseg
    hscript
  obtain ⟨g₂, hscript₂, h₂⟩ := step_reading_bankWrite (s := s.setStatus s.status.readingStarted)
    (c := { c with seg := .bankWrite, v := v }) (res := res.counted.setRcount 1) (turns := List.replicate 3 .ctrl ++ turns)
    hi hbusy hcmd rfl hscript₁
  have h₃ := step_reading_waitStart (s := s.bankSelected) (c := { c with seg := .waitStart, v := v })
    (res := (res.counted.setRcount 1).counted) (g := g₂) (turns := List.replicate 2 .ctrl ++ turns) hi hbusy hcmd rfl
  have h₄ := step_reading_waitCheck (s := s.bankSelected) (c := { c with seg := .waitCheck, t0 := s.nowMs, v := v })
    (res := (res.counted.setRcount 1).counted) (g := g₂) (turns := List.replicate 1 .ctrl ++ turns) hi hbusy hcmd rfl hinside
  obtain ⟨g₅, hscript₅, h₅⟩ := step_reading_poll (s := s.bankSelected) (c := { c with seg := .poll, t0 := s.nowMs, v := v })
    (res := (res.counted.setRcount 1).counted) (turns := turns) hi hbusy hcmd rfl hready hscript₂
  exact ⟨_, _, g₅, rfl, rfl, rfl, hscript₅, (runSteps_succ (n + 4) h₁).trans ((runSteps_succ (n + 3) h₂).trans
    ((runSteps_succ (n + 2) h₃).trans ((runSteps_succ (n + 1) h₄).trans (runSteps_succ n h₅))))⟩

end Turns

/-! The channels. -/

/-- The answers to the 18 channel reads: low byte first. -/
def channelAnswers (lo hi : Fin 18 → Byte) : List (Option Draw) := List.ofFn fun k => some (.ok [lo k, hi k])

theorem channelAnswers_drop (lo hi : Fin 18 → Byte) (k : Fin 18) :
    (channelAnswers lo hi).drop k.val = some (.ok [lo k, hi k]) :: (channelAnswers lo hi).drop (k.val + 1) := by
  have hk : k.val < (channelAnswers lo hi).length := by simp [channelAnswers]
  rw [List.drop_eq_getElem_cons hk]
  exact congrArg (· :: _) (List.getElem_ofFn hk)

theorem countUp_ofNat {n : Nat} (h : n < 0xFFFF) : countUp (BitVec.ofNat 16 n) = BitVec.ofNat 16 (n + 1) := by
  apply BitVec.eq_of_toNat_eq
  rw [countUp_toNat, BitVec.toNat_ofNat, BitVec.toNat_ofNat]
  omega

/-- The first `n` channel reads of a scripted reading have been made, after the three transactions before them: `CH`, `RESULT` and
the target as they stand then. -/
structure ChannelsRead (lo hi : Fin 18 → Byte) (answers : List (Option Draw)) (n : Nat) (ch : Vector Half 18) (res : Result)
    (g : Target) : Prop where
  stored : ∀ k : Fin 18, k.val < n → ch[k] = hi k ++ lo k
  txcount : res.txcount = BitVec.ofNat 16 (n + 3)
  rcount : 0 < n → res.rcount = 2
  script : g.script = (channelAnswers lo hi).drop n ++ answers

section Channels

variable {i : Instr} {s : State} {lo hi : Fin 18 → Byte} {answers : List (Option Draw)} {ch : Vector Half 18} {res : Result}
  {g g' : Target} {turns : List Event} {c : Ctx}

/-- One more channel. -/
theorem ChannelsRead.read {k : Fin 18} (h : ChannelsRead lo hi answers k.val ch res g)
    (hscript : g'.script = (channelAnswers lo hi).drop (k.val + 1) ++ answers) :
    ChannelsRead lo hi answers (k.val + 1) (ch.set k.val (hi k ++ lo k) k.isLt) (res.counted.setRcount 2) g' where
  stored j hj := by
    by_cases heq : j = k
    · subst heq
      exact channel_set_same ch j _
    · have hlt : j.val < k.val := by have := Fin.val_ne_of_ne heq; omega
      exact (channel_set_other ch heq _).trans (h.stored j hlt)
  txcount := (congrArg countUp h.txcount).trans (countUp_ofNat (by omega))
  rcount _ := rfl
  script := hscript

/-- The read of channel `I` as the script answers it. -/
theorem ChannelsRead.busRead (h : ChannelsRead lo hi answers c.i.val ch res g) (s : State) (turns : List Event) :
    ∃ g', Machine.busRead s.params.devAddr (channelReg s.params c.i) 2 ((s.setCh ch).midRun c res g turns)
        = some ((.none, [lo c.i, hi c.i]), (s.setCh ch).midRun c (res.counted.setRcount 2) g' turns)
      ∧ ChannelsRead lo hi answers (c.i.val + 1) (ch.set c.i.val (hi c.i ++ lo c.i) c.i.isLt) (res.counted.setRcount 2) g' := by
  have hscript : g.script = some (.ok [lo c.i, hi c.i]) :: ((channelAnswers lo hi).drop (c.i.val + 1) ++ answers) := by
    rw [h.script, channelAnswers_drop, List.cons_append]
  obtain ⟨g', hscript', hread⟩ := busRead_midRun (s := s.setCh ch) (c := c) (res := res) (turns := turns) hscript
    s.params.devAddr (channelReg s.params c.i) rfl
  exact ⟨g', hread, h.read hscript'⟩

theorem ChannelsRead.script_of_all (h : ChannelsRead lo hi answers 18 ch res g) : g.script = answers := by
  rw [h.script, List.drop_of_length_le (by simp [channelAnswers]), List.nil_append]

/-- The turns of the last `m + 1` channels, by induction on `m`. -/
theorem runSteps_reading_channels (hreading : i = .readAll ∨ i = .getSorted) (hbusy : s.status.busy = true)
    (hcmd : decode s.cmd = .ok i) (m : Nat) : ∀ {c : Ctx} {ch : Vector Half 18} {res : Result} {g : Target},
    c.seg = .channel → c.i.val + m = 17 → ChannelsRead lo hi answers c.i.val ch res g →
    ∃ c' ch' res' g', ChannelsRead lo hi answers 18 ch' res' g'
      ∧ runSteps (m + 1) ((s.setCh ch).midRun c res g (List.replicate (m + 1) .ctrl ++ turns))
        = .next (finishReading i ((s.setCh ch').midRun c' res' g' turns)) := by
  induction m with
  | zero =>
    intro c ch res g hseg hlast h
    obtain ⟨g', hread, hall⟩ := h.busRead s turns
    rw [show c.i.val + 1 = 18 by omega] at hall
    have hstep := (step_reading (s := s.setCh ch) hreading hbusy hcmd).trans (acquire_channel_last rfl hseg hread hlast)
    exact ⟨c, _, _, g', hall, runSteps_succ 0 hstep⟩
  | succ m ih =>
    intro c ch res g hseg hm h
    have hi' : c.i.val + 1 < 18 := by omega
    obtain ⟨g', hread, h'⟩ := h.busRead s (List.replicate (m + 1) .ctrl ++ turns)
    have hstep := (step_reading (s := s.setCh ch) hreading hbusy hcmd).trans (acquire_channel_next rfl hseg hread hi')
    obtain ⟨c', ch', res', g'', hall, hrun⟩ := ih (c := { c with stg := hi c.i ++ lo c.i, i := ⟨c.i.val + 1, hi'⟩ }) hseg
      (by dsimp only; omega) h'
    exact ⟨c', ch', res', g'', hall, (runSteps_succ (m + 1) hstep).trans hrun⟩

end Channels

/-- A whole reading whose transactions all succeed and whose first poll finds the ready bit set (43_acquisition.md R188, R190). -/
theorem runSteps_reading {i : Instr} {s : State} {v st : Byte} {b : List Byte} {lo hi : Fin 18 → Byte}
    {answers : List (Option Draw)} {turns : List Event} (hreading : i = .readAll ∨ i = .getSorted)
    (hbusy : s.status.busy = true) (hcmd : decode s.cmd = .ok i) (hctx : s.ctx = some Ctx.fresh) (hcount : s.result.txcount = 0)
    (htimeout : s.timeout ≠ 0) (hready : readyBit s.params st = true) (hturns : s.agenda = List.replicate 23 .ctrl ++ turns)
    (hscript : s.target.script
      = some (.ok [v]) :: some (.ok b) :: some (.ok [st]) :: (channelAnswers lo hi ++ answers)) :
    ∃ c ch res g, ChannelsRead lo hi answers 18 ch res g
      ∧ runSteps 23 s = .next (finishReading i ((s.bankSelected.setCh ch).midRun c res g turns)) := by
  obtain ⟨c₁, res₁, g₁, hseg₁, hi₁, hcount₁, hscript₁, hopening⟩ := runSteps_reading_opening (c := Ctx.fresh) (res := s.result)
    (turns := List.replicate 18 .ctrl ++ turns) hreading hbusy hcmd rfl htimeout hready hscript 18
  have hnone : ChannelsRead lo hi answers c₁.i.val s.ch res₁ g₁ := by
    rw [hi₁]
    refine ⟨nofun, ?_, nofun, hscript₁⟩
    rw [hcount₁, hcount]
    rfl
  obtain ⟨c, ch, res, g, hall, hchannels⟩ := runSteps_reading_channels (s := s.bankSelected) (turns := turns) hreading hbusy hcmd
    17 hseg₁ (by omega) hnone
  have hself := State.midRun_self hctx
  rw [hturns] at hself
  exact ⟨c, ch, res, g, hall, hself ▸ hopening.trans hchannels⟩

/-- Settles O42: the run of 23 turns, and what its 18 channel reads leave in `CH`. -/
theorem getSortedWholeCommand : Obligations.GetSortedWholeCommand := by
  unfold Obligations.GetSortedWholeCommand
  intro s v0 st b1 lo hi more rest hbusy hcmd hctx hcount htimeout hready hturns hscript
  obtain ⟨c, ch, res, g, hall, hrun⟩ := runSteps_reading (.inr rfl) hbusy hcmd hctx hcount htimeout hready hturns hscript
  have hstored (k : Fin 18) : ch[k] = hi k ++ lo k := hall.stored k k.isLt
  have hword : (sortChannels (validateChannels ((s.bankSelected.setCh ch).midRun c res g rest))).cmd = s.cmd := by simp
  exact ⟨_, hrun, completes_succeed hword, rfl, hall.script_of_all, rfl, rfl, rfl, hall.txcount, hall.rcount (by decide),
    hstored, fun k => (sortedView_get ch k.val k.isLt).trans (hstored sortPerm[k])⟩

end Sys2Proof.Machine
end

section
/-! SUPPORT. The obligations of 44_pseudo.md: a turn of the host at `WAIT_IDLE`, and the words that the expansions store. -/

namespace Sys2Proof.Machine

/-! `WAIT_IDLE`. -/

/-- A turn of the host is the first access of its program. -/
theorem hostTurn_of_prog {s : State} {op : HostOp} {ops : List HostOp} (h : s.host.prog = op :: ops) :
    hostTurn s = hostAccess op s := by
  simp [hostTurn, h]

theorem hostAccess_waitIdle_busy {s : State} (hb : s.status.busy = true) :
    hostAccess .waitIdle s = .next (returnWord s.status.word s) := by
  simp [hostAccess, hb, csrValue]

theorem hostAccess_waitIdle_idle {s : State} (hb : s.status.busy = false) :
    hostAccess .waitIdle s = .next (advanceHost (returnWord s.status.word s)) := by
  simp [hostAccess, hb, csrValue]

/-- Settles O18, by whether `BUSY` reads 1: the load alone, or the load and the next line. -/
theorem waitIdleLoopsWhileBusy : Obligations.WaitIdleLoopsWhileBusy := by
  unfold Obligations.WaitIdleLoopsWhileBusy
  intro s ops hp
  rw [hostTurn_of_prog hp]
  cases hb : s.status.busy with
  | true =>
    rw [hostAccess_waitIdle_busy hb]
    rfl
  | false =>
    rw [hostAccess_waitIdle_idle hb, advanceHost_of_prog (s := returnWord s.status.word s) hp]
    rfl

/-! The words that are stored. -/

/-- A byte as a 32-bit word has the byte low and 24 zero bits above it. -/
theorem zeroExtend_byte_fields (v : Byte) :
    (v.zeroExtend 32 : Word).extractLsb' 0 8 = v ∧ (v.zeroExtend 32 : Word).extractLsb' 8 24 = 0#24 := by
  have hjoin : (v.zeroExtend 32 : Word) = 0#24 ++ v := BitVec.setWidth_eq_append (by decide)
  rw [hjoin]
  exact ⟨BitVec.extractLsb'_append_eq_right, BitVec.extractLsb'_append_eq_left⟩

/-- The argument of `SET_ITIME` is `ATIME` low, `ASTEP` above it and 8 zero bits (44_pseudo.md R208). -/
theorem itimeArg_eq_append (atime : Byte) (astep : Half) : itimeArg atime astep = 0#8 ++ astep ++ atime := by
  have hjoin := BitVec.setWidth_append_append_eq_shiftLeft_setWidth_or (b := 0#8) (b' := astep) (b'' := atime) (w''' := 32)
  rw [BitVec.setWidth_eq] at hjoin
  rw [hjoin]
  simp [itimeArg]

theorem itimeArg_fields (atime : Byte) (astep : Half) :
    (itimeArg atime astep).extractLsb' 0 8 = atime ∧ (itimeArg atime astep).extractLsb' 8 16 = astep
      ∧ (itimeArg atime astep).extractLsb' 24 8 = 0#8 := by
  rw [itimeArg_eq_append]
  refine ⟨BitVec.extractLsb'_append_eq_right, ?_, ?_⟩
  · rw [BitVec.extractLsb'_append_eq_of_le (by decide)]
    exact BitVec.extractLsb'_append_eq_right
  · repeat rw [BitVec.extractLsb'_append_eq_of_le (by decide)]
    exact BitVec.extractLsb'_eq_self

/-- The arguments of `SET_ITIME` for the three presets (44_pseudo.md R207, R208). -/
theorem itimeArg_presets : itimeArg Precision.low.atime Precision.low.astep = 0x0003E700
    ∧ itimeArg Precision.medium.atime Precision.medium.astep = 0x004E2001
    ∧ itimeArg Precision.high.atime Precision.high.astep = 0x00FFFE00 := by decide

/-- The two bytes of `ASTEP` for the three presets (44_pseudo.md R209). -/
theorem Precision.astep_bytes : lowByte Precision.low.astep = 0xE7 ∧ highByte Precision.low.astep = 0x03
    ∧ lowByte Precision.medium.astep = 0x20 ∧ highByte Precision.medium.astep = 0x4E
    ∧ lowByte Precision.high.astep = 0xFE ∧ highByte Precision.high.astep = 0xFF := by decide

/-! The expansions. -/

/-- An `ARG`-taking form stores its argument to `ARG` and the word of its command to `CMD`, and waits (44_pseudo.md R208). -/
theorem argForm_eq {i : Instr} {word : Word} (h : encode i = word) (v : Word) :
    [storeCsr .arg v, command i, .waitIdle] = [HostOp.store .word 0x04 v, .store .word 0x00 word, .waitIdle] := by
  rw [command, h]
  rfl

theorem expandSetItime_eq (atime : Byte) (astep : Half) : expandSetItime atime astep
    = [.store .word 0x04 (itimeArg atime astep), .store .word 0x00 0x00000007, .waitIdle] :=
  argForm_eq (by decide) _

theorem expandSetTimeout_eq (ms : Word) :
    expandSetTimeout ms = [.store .word 0x04 ms, .store .word 0x00 0x00000008, .waitIdle] :=
  argForm_eq (by decide) ms

/-- A preset is its six host accesses, with the argument of `SET_ITIME` as the word `w` (44_pseudo.md R207). -/
theorem expand_setPrecision {p : Precision} {w : Word} (h : itimeArg p.atime p.astep = w) : (Pseudo.setPrecision p).expand
    = [.store .word 0x04 w, .store .word 0x00 0x00000007, .waitIdle,
       .store .word 0x04 p.timeout, .store .word 0x00 0x00000008, .waitIdle] := by
  rw [Pseudo.expand, expandSetItime_eq, expandSetTimeout_eq, h]
  rfl

/-- Settles O19: the expansions with their `CMD` words, and the words that they store by their fields. -/
theorem precisionExpansions : Obligations.PrecisionExpansions := by
  unfold Obligations.PrecisionExpansions
  obtain ⟨hlow, hmedium, hhigh⟩ := itimeArg_presets
  refine ⟨rfl, fun a r v => ?writeByte, fun a r => ?readByte, fun b => ?setBank, fun g => ?setGain, fun atime astep => ?setItime,
    expandSetTimeout_eq, expand_setPrecision hlow, expand_setPrecision hmedium, expand_setPrecision hhigh,
    fun _ => rfl, hlow, hmedium, hhigh, rfl, rfl, rfl, Precision.astep_bytes⟩
  case writeByte =>
    obtain ⟨hbyte, hclear⟩ := zeroExtend_byte_fields v
    exact ⟨_, _, rfl, hbyte, hclear, decode_encode (.write a r 1)⟩
  case readByte => exact ⟨_, rfl, decode_encode (.read a r 1)⟩
  case setBank => exact argForm_eq (by decide) b
  case setGain => exact argForm_eq (by decide) g
  case setItime => exact ⟨_, expandSetItime_eq atime astep, itimeArg_fields atime astep⟩

end Sys2Proof.Machine
end

section
/-! SUPPORT. The codes that each command completes with (60_exceptions.md R220, R221): one rule per ending of a segment and one per
way to run it, so that the row of each command is read off its own positions. -/

namespace Sys2Proof.Machine

/-- The command goes on in `t`, or it completed with a code of the row of `i` and `OK` as R223 has it. -/
def ListedEnd (i : Instr) (t : State) : Prop :=
  t.status.busy = false → ∃ code ∈ possibleCodes i, t.status.err = code.code ∧ t.status.ok = decide (code = .none)

/-- A segment run from `s` with a command in progress that ends as the row of `i` lists, if it answers next. -/
def ListedSegment (i : Instr) (s : State) (o : Out) : Prop :=
  s.status.busy = true → ∀ t, o = .next t → ListedEnd i t

/-! The codes. -/

theorem none_mem_possibleCodes (i : Instr) : .none ∈ possibleCodes i := by
  cases i <;> exact List.mem_cons_self

/-- No two failures have one code (60_exceptions.md R220): 0 is that of no failure alone. -/
theorem ErrCode.code_eq_none_iff {code : ErrCode} : code.code = ErrCode.none.code ↔ code = .none := by
  cases code <;> decide

/-- What `E` can hold is the row of `IS_CONNECTED` (41_bank_identity.md R153). -/
theorem code_mem_identityCodes_iff {code : ErrCode} : code.code ∈ identityCodes ↔ code ∈ possibleCodes .isConnected := by
  cases code <;> decide

/-- A command with a read lists the codes that a read can fail with, and so every code of a read (40_bus_adapter.md R131). -/
theorem busRead_code_listed {i : Instr} (hread : [ErrCode.nack, .short] ⊆ possibleCodes i) {a : BitVec 7} {r : BitVec 8}
    {n : Nat} {s s' : State} {code : ErrCode} {bytes : List Byte} (h : busRead a r n s = some ((code, bytes), s')) :
    code ∈ possibleCodes i := by
  obtain rfl | rfl | rfl := busRead_code h
  · exact none_mem_possibleCodes i
  · exact hread (by decide)
  · exact hread (by decide)

/-! The endings. -/

section Endings

variable {i : Instr} {c : Ctx} {s : State}

theorem listedEnd_complete {code : ErrCode} (h : code ∈ possibleCodes i) (s : State) :
    ListedEnd i (complete (decide (code = .none)) code.code s) := fun _ => ⟨code, h, rfl, rfl⟩

theorem listedEnd_succeed (i : Instr) (s : State) : ListedEnd i (succeed s) :=
  listedEnd_complete (none_mem_possibleCodes i) s

theorem listedEnd_fail {code : ErrCode} (h : code ∈ possibleCodes i) (hne : code ≠ .none) (s : State) :
    ListedEnd i (fail code s) := by
  have hend := listedEnd_complete h s
  rwa [decide_eq_false hne] at hend

theorem listedEnd_of_busy (h : s.status.busy = true) : ListedEnd i s := by
  intro hidle; rw [h] at hidle; cases hidle

theorem listedEnd_resume (c : Ctx) (h : s.status.busy = true) : ListedEnd i (resume c s) := listedEnd_of_busy h

theorem listedEnd_ite {p : Prop} [Decidable p] {t u : State} (ht : p → ListedEnd i t) (hu : ¬p → ListedEnd i u) :
    ListedEnd i (if p then t else u) := by
  split
  · next hp => exact ht hp
  · next hp => exact hu hp

/-- `IS_CONNECTED` ends with the first failure that `E` holds, or with that of its last transaction (41_bank_identity.md R153). -/
theorem listedEnd_finishIdentity (he : c.e ∈ identityCodes) {c3 : ErrCode} (h3 : c3 ∈ possibleCodes .isConnected) (s : State) :
    ListedEnd .isConnected (finishIdentity c c3 s) := by
  have hmem : (if c.e = ErrCode.none.code then c3.code else c.e) ∈ identityCodes := by
    split
    · exact code_mem_identityCodes_iff.mpr h3
    · exact he
  obtain ⟨code, hcode⟩ := ErrCode.exists_code (identityCodes_le hmem)
  rw [← hcode, code_mem_identityCodes_iff] at hmem
  have hend := listedEnd_complete hmem s
  simp only [← ErrCode.code_eq_none_iff, hcode] at hend
  exact hend

/-- The position after a channel is read (43_acquisition.md R188). -/
theorem listedEnd_storeChannel {finish : State → State} (hf : ∀ s, ListedEnd i (finish s)) (bytes : List Byte)
    (h : s.status.busy = true) : ListedEnd i (storeChannel c finish bytes s) := by
  unfold storeChannel
  dsimp only
  split
  · exact listedEnd_resume _ h
  · exact hf _

end Endings

/-! The ways to run a segment. -/

section Ways

variable {i : Instr} {s : State}

theorem listedSegment_next {t : State} (h : s.status.busy = true → ListedEnd i t) : ListedSegment i s (.next t) := by
  intro hb u hu; cases hu; exact h hb

theorem listedSegment_fault (i : Instr) (s : State) (f : Fault) : ListedSegment i s (.fault f) := by
  intro _ t ht; cases ht

theorem listedSegment_fail {code : ErrCode} (h : code ∈ possibleCodes i) (hne : code ≠ .none) :
    ListedSegment i s (.next (fail code s)) := listedSegment_next fun _ => listedEnd_fail h hne s

theorem inCommand_listed {k : Ctx → Out} (hk : ∀ c, s.ctx = some c → ListedSegment i s (k c)) :
    ListedSegment i s (inCommand s k) := by
  intro hb t ht
  obtain ⟨c, hc, hnext⟩ := inCommand_next ht
  exact hk c hc hb t hnext

theorem onWrite_listed {a : BitVec 7} {r : BitVec 8} {bytes : List Byte} {k : WriteOutcome → State → State}
    (hk : ∀ o s', s'.status.busy = true → ListedEnd i (k o s')) : ListedSegment i s (onWrite a r bytes s k) := by
  intro hb t ht
  refine onWrite_elim ht (listedEnd_of_busy hb) fun o s' hwrite => hk o s' ?_
  obtain ⟨hstatus, -⟩ := busWrite_same hwrite
  rwa [hstatus]

theorem onRead_listed (hread : [ErrCode.nack, .short] ⊆ possibleCodes i) {a : BitVec 7} {r : BitVec 8} {n : Nat}
    {k : ErrCode → List Byte → State → State}
    (hk : ∀ code bytes s', code ∈ possibleCodes i → s'.status.busy = true → ListedEnd i (k code bytes s')) :
    ListedSegment i s (onRead a r n s k) := by
  intro hb t ht
  refine onRead_elim ht (listedEnd_of_busy hb) fun code bytes s' h => hk code bytes s' (busRead_code_listed hread h) ?_
  obtain ⟨hstatus, -⟩ := busRead_same h
  rwa [hstatus]

theorem wr_listed (hnack : .nack ∈ possibleCodes i) {r : BitVec 8} {bytes : List Byte} {k : State → State}
    (hk : ∀ s', s'.status.busy = true → ListedEnd i (k s')) : ListedSegment i s (wr r bytes s k) :=
  onWrite_listed fun _ s' hb => listedEnd_ite (fun _ => hk s' hb) fun _ => listedEnd_fail hnack nofun s'

theorem rd_listed (hread : [ErrCode.nack, .short] ⊆ possibleCodes i) {r : BitVec 8} {n : Nat} {k : List Byte → State → State}
    (hk : ∀ bytes s', s'.status.busy = true → ListedEnd i (k bytes s')) : ListedSegment i s (rd r n s k) :=
  onRead_listed hread fun _ bytes s' hcode hb =>
    listedEnd_ite (fun _ => hk bytes s' hb) fun hne => listedEnd_fail hcode hne s'

theorem rmwRead_listed (hread : [ErrCode.nack, .short] ⊆ possibleCodes i) (r : BitVec 8) (next : Seg) (c : Ctx) (s : State) :
    ListedSegment i s (rmwRead r next c s) := rd_listed hread fun _ _ hb => listedEnd_resume _ hb

theorem tryBankRead_listed (hread : [ErrCode.nack, .short] ⊆ possibleCodes i) {k : ErrCode → Byte → State → State}
    (hk : ∀ code v s', code ∈ possibleCodes i → s'.status.busy = true → ListedEnd i (k code v s')) :
    ListedSegment i s (tryBankRead s k) :=
  onRead_listed hread fun code bytes => hk code (bytes.headD 0)

theorem tryBankWrite_listed (hnack : .nack ∈ possibleCodes i) {b : BitVec 1} {c : Ctx} {k : ErrCode → State → State}
    (hk : ∀ code s', code ∈ possibleCodes i → s'.status.busy = true → ListedEnd i (k code s')) :
    ListedSegment i s (tryBankWrite b c s k) :=
  onWrite_listed fun _ _ hb => listedEnd_ite (fun _ => hk .none _ (none_mem_possibleCodes i) hb) fun _ => hk .nack _ hnack hb

theorem selectBankWrite_listed (hnack : .nack ∈ possibleCodes i) {b : BitVec 1} {c : Ctx} {k : State → State}
    (hk : ∀ s', s'.status.busy = true → ListedEnd i (k s')) : ListedSegment i s (selectBankWrite b c s k) :=
  tryBankWrite_listed hnack fun _ s' hcode hb =>
    listedEnd_ite (fun _ => hk s' hb) fun hne => listedEnd_fail hcode hne s'

theorem latchNow_listed (i : Instr) (next : Seg) (c : Ctx) (s : State) : ListedSegment i s (latchNow next c s) :=
  listedSegment_next fun hb => listedEnd_resume _ hb

theorem delayCheck_listed (i : Instr) (d : Word) (next : Seg) (c : Ctx) (s : State) :
    ListedSegment i s (delayCheck d next c s) := listedSegment_next fun hb => listedEnd_resume _ hb

theorem waitTimeCheck_listed (htimeout : .timeout ∈ possibleCodes i) (c : Ctx) (s : State) :
    ListedSegment i s (waitTimeCheck c s) :=
  listedSegment_next fun hb => listedEnd_ite (fun _ => listedEnd_fail htimeout nofun s) fun _ => listedEnd_resume _ hb

theorem waitPoll_listed (hread : [ErrCode.nack, .short] ⊆ possibleCodes i) {c : Ctx} {k : State → State}
    (hk : ∀ s', s'.status.busy = true → ListedEnd i (k s')) : ListedSegment i s (waitPoll c s k) :=
  rd_listed hread fun _ s' hb => listedEnd_ite (fun _ => hk s' hb) fun _ => listedEnd_resume _ hb

end Ways

/-! The commands, by their positions (30_encoding.md R107). -/

section Commands

variable {s : State}

theorem execWrite_listed (a : BitVec 7) (r : BitVec 8) (n : BitVec 6) : ListedSegment (.write a r n) s (execWrite a r n s) := by
  have hnack : .nack ∈ possibleCodes (.write a r n) := by simp [possibleCodes]
  refine inCommand_listed fun c _ => ?_
  split
  · split
    · exact onWrite_listed fun _ _ _ =>
        listedEnd_ite (fun _ => listedEnd_succeed _ _) fun _ => listedEnd_fail hnack nofun _
    · exact listedSegment_fail (by simp [possibleCodes]) nofun
  · exact listedSegment_fault _ s _

theorem execRead_listed (a : BitVec 7) (r : BitVec 8) (n : BitVec 6) : ListedSegment (.read a r n) s (execRead a r n s) := by
  refine inCommand_listed fun c _ => ?_
  split
  · split
    · exact onRead_listed (by simp [possibleCodes]) fun _ _ _ hcode _ =>
        listedEnd_ite (fun _ => listedEnd_succeed _ _) fun hne => listedEnd_fail hcode hne _
    · exact listedSegment_fail (by simp [possibleCodes]) nofun
  · exact listedSegment_fault _ s _

theorem execSetBank_listed : ListedSegment .setBank s (execSetBank s) := by
  refine inCommand_listed fun c _ => ?_
  cases c.seg with
  | start => exact rmwRead_listed (by decide) _ _ c s
  | bankWrite => exact selectBankWrite_listed (by decide) fun s' _ => listedEnd_succeed _ s'
  | _ => exact listedSegment_fault _ s _

theorem execIsConnected_listed (he : ∀ c, s.ctx = some c → c.e ∈ identityCodes) :
    ListedSegment .isConnected s (execIsConnected s) := by
  refine inCommand_listed fun c hc => ?_
  cases c.seg with
  | start =>
    exact tryBankRead_listed (by decide) fun _ _ _ _ hb =>
      listedEnd_ite (fun _ => listedEnd_resume _ hb) fun _ => listedEnd_resume _ hb
  | bankWrite =>
    exact tryBankWrite_listed (by decide) fun _ _ _ hb =>
      listedEnd_ite (fun _ => listedEnd_resume _ hb) fun _ => listedEnd_resume _ hb
  | idRead =>
    exact onRead_listed (by decide) fun _ _ _ _ hb =>
      listedEnd_ite (fun _ => listedEnd_resume _ hb) fun _ => listedEnd_resume _ hb
  | backRead =>
    exact tryBankRead_listed (by decide) fun _ _ s' hcode hb =>
      listedEnd_ite (fun _ => listedEnd_resume _ hb) fun _ => listedEnd_finishIdentity (he c hc) hcode s'
  | backWrite =>
    exact tryBankWrite_listed (by decide) fun _ s' hcode _ => listedEnd_finishIdentity (he c hc) hcode s'
  | _ => exact listedSegment_fault _ s _

theorem execInit_listed : ListedSegment .init s (execInit s) := by
  refine inCommand_listed fun c _ => ?_
  cases c.seg with
  | bankWrite => exact selectBankWrite_listed (by decide) fun _ hb => listedEnd_resume _ hb
  | delayStart => exact latchNow_listed _ _ c s
  | delayLoop => exact delayCheck_listed _ _ _ c s
  | start | ponRead | smuxRead | gainRead | spenRead => exact rmwRead_listed (by decide) _ _ c s
  | ponWrite | smuxWrite | gainWrite => exact wr_listed (by decide) fun _ hb => listedEnd_resume _ hb
  | spenWrite => exact wr_listed (by decide) fun s' _ => listedEnd_succeed _ s'
  | _ => exact listedSegment_fault _ s _

theorem execSetGain_listed : ListedSegment .setGain s (execSetGain s) := by
  refine inCommand_listed fun c _ => ?_
  split
  · split
    · exact listedSegment_fail (by decide) nofun
    · split
      · exact listedSegment_fail (by decide) nofun
      · exact rmwRead_listed (by decide) _ _ c s
  · exact wr_listed (by decide) fun s' _ => listedEnd_succeed _ s'
  · exact listedSegment_fault _ s _

theorem execSetItime_listed : ListedSegment .setItime s (execSetItime s) := by
  refine inCommand_listed fun c _ => ?_
  split
  · split
    · exact listedSegment_fail (by decide) nofun
    · exact wr_listed (by decide) fun _ hb => listedEnd_resume _ hb
  · exact wr_listed (by decide) fun _ hb => listedEnd_resume _ hb
  · exact wr_listed (by decide) fun s' _ => listedEnd_succeed _ s'
  · exact listedSegment_fault _ s _

theorem execSetTimeout_listed : ListedSegment .setTimeout s (execSetTimeout s) := by
  refine inCommand_listed fun c _ => ?_
  cases c.seg with
  | start => exact listedSegment_next fun _ => listedEnd_succeed _ _
  | _ => exact listedSegment_fault _ s _

theorem execWaitDataReady_listed : ListedSegment .waitDataReady s (execWaitDataReady s) := by
  refine inCommand_listed fun c _ => ?_
  cases c.seg with
  | start => exact latchNow_listed _ _ c s
  | waitCheck => exact waitTimeCheck_listed (by decide) c s
  | poll => exact waitPoll_listed (by decide) fun s' _ => listedEnd_succeed _ s'
  | _ => exact listedSegment_fault _ s _

/-- `READ_ALL` and `GET_SORTED` share every position and their row; they differ in `finish` only (43_acquisition.md R188). -/
theorem acquire_listed {i : Instr} {finish : State → State} (hi : possibleCodes i = possibleCodes .readAll)
    (hf : ∀ s', ListedEnd i (finish s')) : ListedSegment i s (acquire finish s) := by
  have hread : [ErrCode.nack, .short] ⊆ possibleCodes i := by rw [hi]; decide
  have hnack : .nack ∈ possibleCodes i := hread (by decide)
  refine inCommand_listed fun c _ => ?_
  cases c.seg with
  | start =>
    exact tryBankRead_listed hread fun _ _ _ hcode hb =>
      listedEnd_ite (fun _ => listedEnd_resume _ hb) fun hne => listedEnd_fail hcode hne _
  | bankWrite => exact selectBankWrite_listed hnack fun _ hb => listedEnd_resume _ hb
  | waitStart => exact latchNow_listed _ _ c s
  | waitCheck => exact waitTimeCheck_listed (by rw [hi]; decide) c s
  | poll => exact waitPoll_listed hread fun _ hb => listedEnd_resume _ hb
  | channel => exact rd_listed hread fun bytes _ hb => listedEnd_storeChannel hf bytes hb
  | _ => exact listedSegment_fault _ s _

/-- Every segment of every command ends as the row of the command lists, where `E` holds a code that it can hold. -/
theorem exec_listed (i : Instr) (he : ∀ c, s.ctx = some c → c.e ∈ identityCodes) : ListedSegment i s (exec i s) := by
  cases i with
  | write a r n => exact execWrite_listed a r n
  | read a r n => exact execRead_listed a r n
  | setBank => exact execSetBank_listed
  | isConnected => exact execIsConnected_listed he
  | init => exact execInit_listed
  | setGain => exact execSetGain_listed
  | setItime => exact execSetItime_listed
  | setTimeout => exact execSetTimeout_listed
  | waitDataReady => exact execWaitDataReady_listed
  | readAll => exact acquire_listed rfl fun _ => listedEnd_succeed _ _
  | getSorted => exact acquire_listed rfl fun _ => listedEnd_succeed _ _

end Commands

/-- The invariant bounds `E` (10_state.md R43). -/
theorem State.Inv.identityCode {s : State} (h : s.Inv) {c : Ctx} (hc : s.ctx = some c) : c.e ∈ identityCodes := by
  obtain ⟨hctx, -⟩ := h
  obtain ⟨-, -, -, he⟩ := (contextSound_busy hc).mp hctx
  exact he

end Sys2Proof.Machine
end

section
/-! SUPPORT. The turns of the agents: which of them stop the model (20_memory.md R65, 60_exceptions.md R239), and what they do to the
clock and the parameters (00_scope.md R7, 60_exceptions.md R231). -/

namespace Sys2Proof.Machine

/-! Who moves. -/

/-- A turn that the agenda leaves open. -/
theorem step_open {s : State} (h : s.agenda = []) : step s = openTurn s := by
  simp [step, h]

/-! No turn faults. -/

/-- The model goes on, or refuses a host access as 20_memory.md R65 says. -/
def GoesOnOrRefuses (o : Out) : Prop :=
  Answers o ∨ o = .refused .narrowHostAccess ∨ o = .refused .misalignedHostAccess

theorem goesOnOrRefuses_next (t : State) : GoesOnOrRefuses (.next t) := .inl (answers_next t)

theorem ifAdmitted_goesOnOrRefuses (w : Width) (off : BitVec 8) (s : State) : GoesOnOrRefuses (ifAdmitted w off s) := by
  cases w with
  | byte | half => exact .inr (.inl rfl)
  | word =>
    dsimp only [ifAdmitted]
    split
    · exact goesOnOrRefuses_next s
    · exact .inr (.inr rfl)

theorem hostTurn_goesOnOrRefuses (s : State) : GoesOnOrRefuses (hostTurn s) := by
  unfold hostTurn
  split
  · exact goesOnOrRefuses_next s
  · next op _ _ =>
    cases op with
    | load w off | store w off _ => exact ifAdmitted_goesOnOrRefuses w off _
    | waitIdle | reset => exact goesOnOrRefuses_next _

/-- The command in `CMD` stands at one of its own positions (10_state.md R21, R47), so a turn of `CTRL` answers. -/
theorem ctrlTurn_answers {s : State} (hs : s.Inv) : Answers (ctrlTurn s) := by
  obtain ⟨-, h⟩ | ⟨i, hb, hi, h⟩ | ⟨e, -, -, h⟩ := ctrlTurn_cases s
  · exact ⟨_, h⟩
  · rw [h]
    obtain ⟨hctx, -⟩ := hs
    cases hc : s.ctx with
    | none => rw [(contextSound_idle hc).mp hctx] at hb; cases hb
    | some c =>
      obtain ⟨-, hfit, -⟩ := (contextSound_busy hc).mp hctx
      exact exec_answers i hc ((positionFits_legal hi c).mp hfit)
  · exact ⟨_, h⟩

theorem openTurn_answers {s : State} (hs : s.Inv) : Answers (openTurn s) := by
  obtain ⟨-, h⟩ | ⟨-, h⟩ := openTurn_cases s
  · rw [h]; exact ctrlTurn_answers (s := s.setSpent (s.spent + 1)) hs
  · exact ⟨_, h⟩

theorem runEvent_goesOnOrRefuses {s : State} (hs : s.Inv) (e : Event) : GoesOnOrRefuses (runEvent e s) := by
  cases e with
  | host => exact hostTurn_goesOnOrRefuses s
  | ctrl => exact .inl (ctrlTurn_answers hs)
  | clock | engine | powerCycle => exact goesOnOrRefuses_next _

/-! The clock and the parameters. -/

/-- The two states agree on `NOW_MS` and the parameters. -/
def SameTime (s t : State) : Prop := t.params = s.params ∧ t.nowMs = s.nowMs

theorem sameOutside.sameTime {s t : State} (h : sameOutside s t) : SameTime s t := by
  obtain ⟨-, -, htime, -, -, -, -, hparams, -⟩ := h
  exact ⟨hparams, htime⟩

/-- A turn of `CTRL` leaves alone what the other agents own. -/
theorem ctrlTurn_keepsOutside (s : State) : NextKeepsOutside s (ctrlTurn s) := by
  obtain ⟨-, h⟩ | ⟨i, -, -, h⟩ | ⟨e, -, -, h⟩ := ctrlTurn_cases s
  · rw [h]; exact nextKeepsOutside_next (.refl s)
  · rw [h]; exact exec_keepsOutside i s
  · rw [h]; exact nextKeepsOutside_next (keepsOutside_fail .illegal s)

theorem csrWrite_sameTime (off : BitVec 8) (v : Word) (s : State) : SameTime s (csrWrite off v s) := by
  obtain h | ⟨-, h⟩ | ⟨-, h | h | ⟨x, h⟩⟩ := csrWrite_cases off v s
  all_goals rw [h]; exact ⟨rfl, rfl⟩

/-- A reset leaves the clock (10_state.md R48). -/
theorem hostReset_sameTime (cut : Leftover) (s : State) : SameTime s (hostReset cut s) := by
  rw [hostReset_eq]
  exact ⟨rfl, rfl⟩

theorem hostTurn_sameTime {s t : State} (h : hostTurn s = .next t) : SameTime s t := by
  unfold hostTurn at h
  split at h
  · cases h; exact ⟨rfl, rfl⟩
  · next op _ _ =>
    cases op with
    | load w off => obtain ⟨-, -, rfl⟩ := ifAdmitted_next h; exact ⟨rfl, rfl⟩
    | store w off v => obtain ⟨-, -, rfl⟩ := ifAdmitted_next h; exact csrWrite_sameTime off v s
    | waitIdle => cases h; split <;> exact ⟨rfl, rfl⟩
    | reset cut => cases h; exact hostReset_sameTime cut s

/-- Only a turn of `CLOCK` writes `NOW_MS` (60_exceptions.md R231). -/
theorem runEvent_sameTime {s t : State} {e : Event} (he : e ≠ .clock) (h : runEvent e s = .next t) : SameTime s t := by
  cases e with
  | host => exact hostTurn_sameTime h
  | ctrl => exact (ctrlTurn_keepsOutside s t h).sameTime
  | clock => exact absurd rfl he
  | engine | powerCycle => cases h; exact ⟨rfl, rfl⟩

end Sys2Proof.Machine
end

section
/-! SUPPORT. Runs of a machine left alone: its open turns fall to `CLOCK` and to `CTRL` again and again (60_exceptions.md R236,
log 4). -/

namespace Sys2Proof.Machine

/-! Runs. -/

/-- Some run of finitely many steps leads from `s` to `t`. -/
def Reaches (s t : State) : Prop := ∃ n, runSteps n s = .next t

@[refl] theorem Reaches.refl (s : State) : Reaches s s := ⟨0, rfl⟩

/-- A step and the run that goes on from it. -/
theorem Reaches.head {s t u : State} (h : step s = .next t) (hr : Reaches t u) : Reaches s u := by
  obtain ⟨n, hn⟩ := hr
  exact ⟨n + 1, (runSteps_succ n h).trans hn⟩

theorem Reaches.trans {s t u : State} (h : Reaches s t) (hr : Reaches t u) : Reaches s u := by
  obtain ⟨n, hn⟩ := h
  induction n generalizing s with
  | zero => cases hn; exact hr
  | succ n ih =>
    unfold runSteps at hn
    split at hn
    · next s' hstep => exact .head hstep (ih hn)
    · cases hn
    · cases hn

/-! Open turns. -/

/-- The machine is left alone: no turn of another agent is to come. -/
structure LeftAlone (s : State) : Prop where
  inv : s.Inv
  agenda : s.agenda = []

/-- The open turn falls to `CTRL` (log 4). -/
def CtrlMoves (s : State) : Prop := s.spent ≤ (Config.freeRound s.rounds).1

theorem openTurn_ctrl {s : State} (h : CtrlMoves s) : openTurn s = ctrlTurn (s.setSpent (s.spent + 1)) := by
  obtain ⟨-, h'⟩ | ⟨hlt, -⟩ := openTurn_cases s
  · exact h'
  · exact absurd h (Nat.not_le.mpr hlt)

theorem openTurn_clock {s : State} (h : ¬CtrlMoves s) : openTurn s = .next (clockTurn (countOpen s)) := by
  obtain ⟨hle, -⟩ | ⟨-, h'⟩ := openTurn_cases s
  · exact absurd hle h
  · exact h'

/-- A turn of `CTRL`, whatever it does to its command, is one more turn of the round. -/
theorem LeftAlone.step_ctrl {s : State} (hs : LeftAlone s) (h : CtrlMoves s) : ∃ t, step s = .next t ∧ LeftAlone t
    ∧ t.nowMs = s.nowMs ∧ t.rounds = s.rounds ∧ t.spent = s.spent + 1 := by
  have hstep : step s = ctrlTurn (s.setSpent (s.spent + 1)) := (step_open hs.agenda).trans (openTurn_ctrl h)
  obtain ⟨t, ht⟩ := ctrlTurn_answers (s := s.setSpent (s.spent + 1)) hs.inv
  obtain ⟨-, -, htime, -, hagenda, hrounds, hspent, -⟩ := ctrlTurn_keepsOutside _ t ht
  exact ⟨t, hstep.trans ht, ⟨ctrlTurn_inv (s := s.setSpent (s.spent + 1)) hs.inv ht, hagenda.trans hs.agenda⟩, htime, hrounds,
    hspent⟩

/-- A turn of `CLOCK` counts one millisecond. -/
theorem LeftAlone.step_clock {s : State} (hs : LeftAlone s) (h : ¬CtrlMoves s) :
    step s = .next (clockTurn (countOpen s)) ∧ LeftAlone (clockTurn (countOpen s)) :=
  ⟨(step_open hs.agenda).trans (openTurn_clock h), clockTurn_inv (countOpen_inv hs.inv),
    (countOpen_agenda s).trans hs.agenda⟩

/-- The turns of `CTRL` in a round come to an end. -/
theorem LeftAlone.reaches_clock {s : State} (hs : LeftAlone s) :
    ∃ t, Reaches s t ∧ LeftAlone t ∧ t.nowMs = s.nowMs ∧ ¬CtrlMoves t := by
  by_cases h : CtrlMoves s
  · obtain ⟨t, hstep, ht, htime, hrounds, hspent⟩ := hs.step_ctrl h
    have hlt : (Config.freeRound t.rounds).1 + 1 - t.spent < (Config.freeRound s.rounds).1 + 1 - s.spent := by
      rw [hrounds, hspent]; unfold CtrlMoves at h; omega
    obtain ⟨u, hu, hu', htime', hclock⟩ := ht.reaches_clock
    exact ⟨u, .head hstep hu, hu', htime'.trans htime, hclock⟩
  · exact ⟨s, .refl s, hs, rfl, h⟩
termination_by (Config.freeRound s.rounds).1 + 1 - s.spent

/-- The turns of `CLOCK` in a round come to an end, and the next round begins with `CTRL`. -/
theorem LeftAlone.reaches_ctrl {s : State} (hs : LeftAlone s) : ∃ t, Reaches s t ∧ LeftAlone t ∧ CtrlMoves t := by
  by_cases h : CtrlMoves s
  · exact ⟨s, .refl s, hs, h⟩
  obtain ⟨hstep, ht⟩ := hs.step_clock h
  obtain ⟨hle, hcount⟩ | ⟨-, hcount⟩ := countOpen_cases s
  · rw [hcount] at hstep ht
    have hlt : (Config.freeRound s.rounds).1 + (Config.freeRound s.rounds).2 + 1 - (s.spent + 1)
        < (Config.freeRound s.rounds).1 + (Config.freeRound s.rounds).2 + 1 - s.spent := by omega
    obtain ⟨u, hu, hu'⟩ := ht.reaches_ctrl
    exact ⟨u, .head hstep hu, hu'⟩
  · rw [hcount] at hstep ht
    exact ⟨_, .head hstep (.refl _), ht, Nat.zero_le _⟩
termination_by (Config.freeRound s.rounds).1 + (Config.freeRound s.rounds).2 + 1 - s.spent
decreasing_by exact hlt

/-- After finitely many steps `CLOCK` has counted one millisecond more. -/
theorem LeftAlone.counts_one {s : State} (hs : LeftAlone s) : ∃ t, Reaches s t ∧ LeftAlone t ∧ t.nowMs = s.nowMs + 1 := by
  obtain ⟨t, hreach, ht, htime, hclock⟩ := hs.reaches_clock
  obtain ⟨hstep, hnext⟩ := ht.step_clock hclock
  refine ⟨_, hreach.trans (.head hstep (.refl _)), hnext, ?_⟩
  show (countOpen t).nowMs + 1 = s.nowMs + 1
  rw [countOpen_nowMs, htime]

/-- After finitely many steps `CLOCK` has counted `k` milliseconds more, modulo 2^32 (10_state.md R46). -/
theorem LeftAlone.counts {s : State} (hs : LeftAlone s) (k : Nat) :
    ∃ t, Reaches s t ∧ LeftAlone t ∧ t.nowMs = s.nowMs + BitVec.ofNat 32 k := by
  induction k with
  | zero => exact ⟨s, .refl s, hs, (BitVec.add_zero s.nowMs).symm⟩
  | succ k ih =>
    obtain ⟨t, hreach, ht, htime⟩ := ih
    obtain ⟨u, hreach', hu, htime'⟩ := ht.counts_one
    refine ⟨u, hreach.trans hreach', hu, ?_⟩
    rw [htime', htime, BitVec.ofNat_add, BitVec.add_assoc]
    rfl

end Sys2Proof.Machine
end

section
/-! SUPPORT. The obligations of 60_exceptions.md. -/

namespace Sys2Proof.Machine

/-- Settles O20. -/
theorem completionWritesOnlyItsFields : Obligations.CompletionWritesOnlyItsFields := by
  unfold Obligations.CompletionWritesOnlyItsFields
  exact ⟨fun _ _ _ => rfl, fun _ _ => rfl⟩

/-- Settles O48: every ending of a segment is the position of a command in progress or a code of the command's row. -/
theorem failureCodesByCommand : Obligations.FailureCodesByCommand := by
  unfold Obligations.FailureCodesByCommand
  intro i s t hs hb h ht
  exact exec_listed i (fun _ hc => hs.identityCode hc) hb t h ht

/-- Settles O52, by the agent that moves. -/
theorem invariantRulesOutFaults : Obligations.InvariantRulesOutFaults := by
  unfold Obligations.InvariantRulesOutFaults
  intro s hs
  cases ha : s.agenda with
  | nil => rw [step_open ha]; exact .inl (openTurn_answers hs)
  | cons e rest => rw [step_of_agenda ha]; exact runEvent_goesOnOrRefuses (s := s.setAgenda rest) hs e

/-- Settles O54, by the agent that moves. -/
theorem onlyClockWritesTime : Obligations.OnlyClockWritesTime := by
  unfold Obligations.OnlyClockWritesTime
  intro s t h
  cases ha : s.agenda with
  | nil =>
    rw [step_open ha] at h
    obtain ⟨-, h'⟩ | ⟨hclock, h'⟩ := openTurn_cases s
    · obtain ⟨hparams, htime⟩ := (ctrlTurn_keepsOutside _ t (h' ▸ h)).sameTime
      exact ⟨hparams, .inl htime⟩
    · rw [h'] at h
      cases h
      exact ⟨countOpen_params s, .inr ⟨congrArg (· + 1) (countOpen_nowMs s), .inr ⟨rfl, hclock⟩⟩⟩
  | cons e rest =>
    rw [step_of_agenda ha] at h
    by_cases he : e = .clock
    · subst he
      cases h
      exact ⟨rfl, .inr ⟨rfl, .inl ⟨rest, rfl⟩⟩⟩
    · obtain ⟨hparams, htime⟩ := runEvent_sameTime he h
      exact ⟨hparams, .inl htime⟩

/-- Settles O56: in each round the turns of `CTRL` come to an end, and so do those of `CLOCK`. -/
theorem openTurnsAreFair : Obligations.OpenTurnsAreFair := by
  unfold Obligations.OpenTurnsAreFair
  intro s hs ha
  have halone : LeftAlone s := ⟨hs, ha⟩
  constructor
  · intro k
    obtain ⟨t, ⟨n, hrun⟩, ht, htime⟩ := halone.counts k
    exact ⟨n, t, hrun, ht.agenda, htime⟩
  · obtain ⟨t, ⟨n, hrun⟩, ht, hctrl⟩ := halone.reaches_ctrl
    exact ⟨n, t, hrun, ht.agenda, (step_open ht.agenda).trans (openTurn_ctrl hctrl)⟩

end Sys2Proof.Machine
end

section
/-! SUPPORT. The obligation of 00_scope.md section 3: who moves at a turn that the agenda leaves open (log 4). -/

namespace Sys2Proof.Machine

/-- Settles O8: a turn of `CTRL`, one of `CLOCK` within its round, or the last of the round. -/
theorem openTurnIsClockOrController : Obligations.OpenTurnIsClockOrController := by
  unfold Obligations.OpenTurnIsClockOrController
  intro s ha a b
  rw [step_open ha]
  by_cases hctrl : s.spent ≤ a
  · rw [if_pos hctrl]
    exact openTurn_ctrl hctrl
  · rw [if_neg hctrl, openTurn_clock hctrl]
    obtain ⟨hround, hcount⟩ | ⟨hlast, hcount⟩ := countOpen_cases s
    · rw [if_pos hround, hcount]
      rfl
    · rw [if_neg (Nat.not_le.mpr hlast), hcount]
      rfl

end Sys2Proof.Machine
end
